-- ==== Sys2Proof/Word.lean ====
section
/-! DEFINITION. The word types of the JX-44 (spec/00_scope.md, Conventions). -/

namespace Sys2Proof

/-- A data word of the array: 32 bits, lane `L` in bits `8L+7` down to `8L` (R2). -/
abbrev Word := BitVec 32

/-- A word address of the array, 20 bits (00, Conventions). -/
abbrev Addr := BitVec 20

/-- A byte address of a processor request, 22 bits (R3). -/
abbrev ByteAddr := BitVec 22

/-- A lane mask: lane `L` in bit `L` (R2, R193). -/
abbrev LaneMask := BitVec 4

/-- A tag, 0 to 15. -/
abbrev Tag := BitVec 4

/-- The 39 bits of a stored word, position `k` in bit `k` (R1). -/
abbrev Bits39 := BitVec 39

/-- A register of the window, 16 bits (R188). -/
abbrev Reg16 := BitVec 16

/-- A frame of a Stream Link, 48 bits (R195). -/
abbrev Frame := BitVec 48

end Sys2Proof
end

