-- ==== Sys2Proof/Syntax.lean ====
section
/-! DEFINITION. The commands of the JX-44: one constructor per row of spec/opcode_table.json, with the operands the
spec gives the row. -/

namespace Sys2Proof

/-- The two stream ports (chapter 07). -/
inductive SpId where
  | sp0
  | sp1
  deriving DecidableEq, Repr

/-- The three request paths into the part (00, Ports and sources). -/
inductive Port where
  | pp
  | sp0
  | sp1
  deriving DecidableEq, Repr

/-- The stream port as one of the three ports. -/
def SpId.port : SpId → Port
  | .sp0 => .sp0
  | .sp1 => .sp1

/-- The strobes of a bus access up to its taking event (R188, R199; log 9): a read's is the assertion of the read
strobe, a write's the release of the write strobe. -/
structure Bus where
  /-- Chip select is asserted, at the strobe's assertion and at the taking event. -/
  chipSelect : Bool
  /-- The other strobe is asserted at the taking event: the write strobe for a read, the read strobe for a write. -/
  otherStrobe : Bool
  /-- In this access the read strobe was asserted while the write strobe was already asserted, whichever strobe is
  released first. -/
  crossed : Bool
  /-- The strobe was asserted after the latest release of RESET (R199). -/
  sinceRelease : Bool
  /-- The access reaches the part together with the event at which a grant is made, and is taken before that grant
  (R82, R160, R170; log 18). -/
  together : Bool
  deriving DecidableEq, Repr

/-- A frame as it arrives on a link (R125, R199; log 9). -/
structure Arrival where
  frame : Frame
  /-- The whole frame arrived after the latest release of RESET (R199). -/
  whole : Bool
  deriving DecidableEq, Repr

/-- An ABORT frame as it arrives. -/
structure AbortArrival extends Arrival where
  /-- The frame reaches the part together with the event at which a grant is made, and is taken before that grant
  (R82; log 18). -/
  together : Bool
  deriving DecidableEq, Repr

/-- The commands, one constructor per row of the opcode table. -/
inductive Instr where
  /-- R198: the RESET pin is asserted. -/
  | resetAssert
  /-- R199: the RESET pin is released. -/
  | resetRelease
  /-- R110: a REFCLK period completes a tick. -/
  | tick
  /-- R153: the beat timer of a stream port expires. -/
  | beatTimerExpiry (p : SpId)
  /-- R160: the patrol interval expires. -/
  | intervalExpiry
  /-- R109: a read of CTRL_STATUS. -/
  | ctrlStatusRead (b : Bus)
  /-- R123: a read of CPL_POP. -/
  | cplPop (b : Bus)
  /-- R113: a write of REQ_SUBMIT; the value written is ignored. -/
  | reqSubmit (b : Bus) (v : Reg16)
  /-- R5: a write of CFG_MEMSIZE. -/
  | cfgMemsizeWrite (b : Bus) (v : Reg16)
  /-- R111: a write of CFG_PRESCALE. -/
  | cfgPrescaleWrite (b : Bus) (v : Reg16)
  /-- R33: a write of CFG_WATERMARKS. -/
  | cfgWatermarksWrite (b : Bus) (v : Reg16)
  /-- R94: a write of CFG_PROTECT. -/
  | cfgProtectWrite (b : Bus) (v : Reg16)
  /-- R185: a write of IRQ_PENDING. -/
  | irqPendingWrite (b : Bus) (v : Reg16)
  /-- R189: a write of a register with no behaviour of its own. -/
  | registerWrite (b : Bus) (off : BitVec 7) (v : Reg16)
  /-- R103. -/
  | run (b : Bus) (arg : BitVec 8)
  /-- R104. -/
  | halt (b : Bus) (arg : BitVec 8)
  /-- R131. -/
  | portEnable (b : Bus) (arg : BitVec 8)
  /-- R132. -/
  | portDisable (b : Bus) (arg : BitVec 8)
  /-- R133. -/
  | portReset (b : Bus) (arg : BitVec 8)
  /-- R134. -/
  | portResume (b : Bus) (arg : BitVec 8)
  /-- R96. -/
  | loadRegion (b : Bus) (arg : BitVec 8)
  /-- R98. -/
  | viewRegion (b : Bus) (arg : BitVec 8)
  /-- R50. -/
  | viewEntry (b : Bus) (arg : BitVec 8)
  /-- R42. -/
  | resolveDiscard (b : Bus) (arg : BitVec 8)
  /-- R43. -/
  | resolveForce (b : Bus) (arg : BitVec 8)
  /-- R159. -/
  | scrubStart (b : Bus) (arg : BitVec 8)
  /-- R164. -/
  | scrubStop (b : Bus) (arg : BitVec 8)
  /-- R165. -/
  | fillStart (b : Bus) (arg : BitVec 8)
  /-- R170. -/
  | fillStop (b : Bus) (arg : BitVec 8)
  /-- R178. -/
  | logPop (b : Bus) (arg : BitVec 8)
  /-- R179. -/
  | logClearOverflow (b : Bus) (arg : BitVec 8)
  /-- R183. -/
  | clearCounts (b : Bus) (arg : BitVec 8)
  /-- R194: a COMMAND write whose code names no command. -/
  | unknownCommand (b : Bus) (code : BitVec 8) (arg : BitVec 8)
  /-- R138: a HEADER frame arrives. -/
  | header (p : SpId) (f : Arrival)
  /-- R127: a WRITE_BEAT frame arrives; `together` says that it reaches the part together with the release of
  held requests that the latest event set in motion, and is taken before it (R64; log 18). -/
  | writeBeat (p : SpId) (f : Arrival) (together : Bool)
  /-- R154: an ABORT frame arrives. -/
  | abort (p : SpId) (f : AbortArrival)
  /-- R195: a frame of type 0 or 4 to 15 arrives. -/
  | discardedFrame (p : SpId) (f : Arrival)
  /-- R115. -/
  | prqDispatch
  /-- R142. -/
  | srqDispatch (p : SpId)
  /-- R76. -/
  | arrayGrant
  /-- R35. -/
  | drainStart
  /-- R44. -/
  | resolveWriteRequest
  /-- R117. -/
  | ppReadCompletion
  /-- R144: of the stream port whose read is in flight. -/
  | streamReadCompletion
  /-- R37. -/
  | drainReadCompletion
  /-- R39. -/
  | drainWriteCompletion
  /-- R61. -/
  | atomicReadCompletion
  /-- R63. -/
  | atomicWriteCompletion
  /-- R162. -/
  | patrolReadCompletion
  /-- R163. -/
  | patrolWriteCompletion
  /-- R167. -/
  | fillWriteCompletion
  /-- R64: the held request of one port is released; requests released together are taken one after another. -/
  | lockHoldRelease (q : Port)
  /-- R168: the held request of one port is released. -/
  | fenceHoldRelease (q : Port)
  /-- R26. -/
  | waitingWriterAllocation
  /-- R59. -/
  | forcedDrainSignal
  /-- R46. -/
  | flushCompletion
  /-- R105. -/
  | quiesceComplete
  /-- R7, R8: the stored bits of one word at the set positions of `flips` are disturbed. -/
  | arrayDisturbance (a : Addr) (flips : Bits39)
  /-- R110: a REFCLK period. -/
  | refclkPeriod
  deriving DecidableEq, Repr

end Sys2Proof
end

