-- ==== Sys2Proof/Decode.lean ====
section
/-! DEFINITION. The command a word spells (spec/opcode_table.json gives no row any bits, "fields": [] on all 59
rows, so no word spells a command: log 21), and the type field of a link frame. -/

namespace Sys2Proof

/-- The command spelled by the `nbits` bits of `w`: none, since the table gives no row bits. -/
def decodeTableWord (_nbits _w : Nat) : Option Instr := none

/-- The frame type, bits 3:0 (R195). -/
def frameType (f : Frame) : BitVec 4 := f.extractLsb' 0 4

end Sys2Proof
end

