-- ==== Sys2Proof/Config.lean ====
section
/-! DEFINITION. The free values of the model: what the spec leaves open. Each is a constant with no body,
so that no proof can see its value. -/

namespace Sys2Proof

/-- FREE VALUE (log 5). What a read reports of a written word with three or more flipped bits, by the data last
written and the flips: R8 allows any of the three outcomes. `Machine.freeOutcome` narrows the number to one. -/
opaque Config.decodeMany : Word → Bits39 → Nat

/-- FREE VALUE (log 6). The 32 data bits that a word never written since power-up holds (R11). -/
opaque Config.powerUpData : Addr → Word

/-- FREE VALUE (log 6). What a read reports of a word never written since power-up, by its address and the
bits disturbed since (R11: any of the three outcomes). -/
opaque Config.powerUpOutcome : Addr → Bits39 → Nat

/-- FREE VALUE (log 7). Whether a write that device reset cuts off has stored its new word (R16), by the count of
free values taken before. -/
opaque Config.cutWriteStored : Nat → Bool

/-- FREE VALUE (log 8). The seven check bits of a data word: the spec does not give the code's equations (R7). -/
opaque Config.checkBits : Word → BitVec 7

/-- FREE VALUE (log 3). Which of several events that come about together is taken first, by the count of free
values taken before. -/
opaque Config.order : Nat → Nat

end Sys2Proof
end

