-- ==== Sys2Proof/Machine/State.lean ====
section
/-! DEFINITION. The state of the JX-44, block by block, as plain data, and the state after reset. -/

namespace Sys2Proof.Machine

/-! ### The stored word, its decode outcome and the array interface (chapter 01) -/

/-- What was last stored at a word of the array: data the array interface wrote (R7), or the arbitrary contents of
power-up (R11). -/
inductive WordBase where
  | written (d : Word)
  | powerUp
  deriving DecidableEq, Repr

/-- A stored word: as last written, and the stored bits that differ from that (R8; log 25). -/
structure StoredWord where
  base  : WordBase
  flips : Bits39
  deriving DecidableEq, Repr

/-- A word neither written nor disturbed since power-up: what an unlisted address of the array holds (R11, log 6). -/
def StoredWord.untouched : StoredWord := { base := .powerUp, flips := 0#39 }

/-- The array: word address and stored word, addresses rising, no entry `StoredWord.untouched`. -/
abbrev ArrayMem := List (Nat × StoredWord)

/-- A decode outcome (R8); a CORRECTED outcome carries its error position, 1 to 39 (R10). -/
inductive DecodeOutcome where
  | clean
  | corrected (pos : BitVec 7)
  | uncorrectable
  deriving DecidableEq, Repr

/-- The six requesters of the arbiter (R73). -/
inductive Requester where
  | pp | sp0 | sp1 | dr | ae | sc
  deriving DecidableEq, Repr

/-- The kinds of access (R12). -/
inductive AccessKind where
  | read | write | paired
  deriving DecidableEq, Repr

/-- The states of the array interface (Table 1-6). -/
inductive AifState where
  | idle | reading | writing | pairedRead | pairedWrite
  deriving DecidableEq, Repr

/-- The access in flight (Table 1-5). -/
structure Access where
  kind      : AccessKind
  requester : Requester
  addr      : Addr
  writeData : Option Word
  readData  : Option Word
  outcome   : Option DecodeOutcome
  deriving DecidableEq, Repr

/-- The array interface (R12). -/
structure Aif where
  state  : AifState
  access : Option Access
  deriving DecidableEq, Repr

/-! ### The merge buffer and its drain engine (chapter 02) -/

/-- Entry states (Table 2-2). -/
inductive EntryState where
  | free | pending | reading | writing | faulted
  deriving DecidableEq, Repr

/-- A merge buffer entry (Table 2-1). The age position is computed from the age list; the address of a FREE entry
is 0 (log 26). -/
structure Entry where
  state          : EntryState
  addr           : Addr
  data           : Word
  mask           : LaneMask
  selected       : Bool
  forced         : Bool
  flushBound     : Bool
  reopened       : Bool
  flushCarry     : Bool
  resolvePending : Bool
  deriving DecidableEq, Repr

/-- A FREE entry: the defaults of Table 2-1. -/
def Entry.default : Entry :=
  { state := .free, addr := 0#20, data := 0#32, mask := 0#4, selected := false, forced := false,
    flushBound := false, reopened := false, flushCarry := false, resolvePending := false }

/-- A merge write (R20). -/
structure MergeWrite where
  port : Port
  addr : Addr
  data : Word
  mask : LaneMask
  deriving DecidableEq, Repr

/-- Drain engine phases (Table 2-4). -/
inductive DrainPhase where
  | idle | readWait | readAccess | writeWait | writeAccess | resolveWait | resolveAccess
  deriving DecidableEq, Repr

/-- The drain engine (R32). -/
structure Drain where
  phase : DrainPhase
  entry : Option (Fin 8)
  deriving DecidableEq, Repr

/-- The MBV_* view registers (R50). -/
structure EntryView where
  state : Reg16
  addr  : Addr
  data  : Word
  deriving DecidableEq, Repr

/-- The merge buffer (R17, R19, R21, R26, R32, R45, R50). -/
structure MergeBuffer where
  entries      : Vector Entry 8
  /-- The age list, oldest first (R19). -/
  age          : List (Fin 8)
  /-- The waiting-writer list, head first (R26). -/
  waiting      : List MergeWrite
  /-- The merge writes held by a lock entry (R21). -/
  held         : List MergeWrite
  drain        : Drain
  /-- The faulted count of the FLUSH in progress (R45). -/
  faultedCount : Nat
  view         : EntryView
  deriving DecidableEq, Repr

/-! ### The word lock table (chapter 03) -/

/-- The atomic operations (R52). -/
inductive AtomicOp where
  | fetchAdd | fetchOr | fetchClear | swap | compareSwap
  deriving DecidableEq, Repr

/-- Lock entry states (Table 3-4). -/
inductive LockState where
  | waitTurn | waitDrain | waitGrant | inArray
  deriving DecidableEq, Repr

/-- A word lock table entry (Table 3-3); the acceptance order is its place in the table. -/
structure LockEntry where
  port      : Port
  tag       : Tag
  addr      : Addr
  op        : AtomicOp
  opA       : Word
  opB       : Option Word
  state     : LockState
  cancelled : Bool
  deriving DecidableEq, Repr

/-! ### The array arbiter (chapter 04) -/

/-- A waiting request (R74); the atomic engine's names no word. -/
structure Request where
  kind : AccessKind
  addr : Option Addr
  deriving DecidableEq, Repr

/-- The six request slots (R73). -/
structure Slots where
  pp  : Option Request
  sp0 : Option Request
  sp1 : Option Request
  dr  : Option Request
  ae  : Option Request
  sc  : Option Request
  deriving DecidableEq, Repr

/-- The arbiter (R73, R78, R80). -/
structure Arbiter where
  slots   : Slots
  pointer : Requester
  bypass  : Nat
  deriving DecidableEq, Repr

/-! ### The access check unit (chapter 05) -/

/-- One port's rights in a region (R90). -/
structure PortRights where
  r : Bool
  w : Bool
  a : Bool
  deriving DecidableEq, Repr

/-- A region descriptor (Table 5-1). -/
structure Region where
  first   : BitVec 14
  last    : BitVec 14
  pp      : PortRights
  sp0     : PortRights
  sp1     : PortRights
  enabled : Bool
  deriving DecidableEq, Repr

/-- A port without rights. -/
def PortRights.none : PortRights := { r := false, w := false, a := false }

/-- The default descriptor (R90). -/
def Region.default : Region :=
  { first := 0#14, last := 0#14, pp := .none, sp0 := .none, sp1 := .none, enabled := false }

/-- The access check unit: the region table, the staging and the view registers (R90, R95, R98). -/
structure Acu where
  regions    : Vector Region 16
  rgnFirst   : BitVec 14
  rgnLast    : BitVec 14
  rgnRights  : Reg16
  viewFirst  : BitVec 14
  viewLast   : BitVec 14
  viewRights : Reg16
  deriving DecidableEq, Repr

/-! ### Controller state, configuration and the processor port (chapter 06) -/

/-- The controller state (R102). -/
inductive CtrlState where
  | halted | running | quiescing
  deriving DecidableEq, Repr

/-- The results of a direct command (R107). -/
inductive CmdResult where
  | none | done | refusedState | refusedArgument | unknown
  deriving DecidableEq, Repr

/-- Controller state, CONFIG_REFUSED, COMMAND_RESULT, the timebase and the data lines as a read last drove them
(R102, R109, R107, R110, R188). -/
structure Control where
  state         : CtrlState
  configRefused : Bool
  cmdResult     : CmdResult
  cmdCode       : BitVec 8
  prescaleCount : Nat
  readData      : Reg16
  deriving DecidableEq, Repr

/-- The settings of CFG_MEMSIZE, CFG_PRESCALE, CFG_WATERMARKS, CFG_PROTECT and CFG_LOGGING (R4, R110, R33, R94,
R181). -/
structure Settings where
  memsize  : BitVec 3
  prescale : Reg16
  lwm      : BitVec 4
  hwm      : BitVec 4
  protect  : Bool
  logging  : Bool
  deriving DecidableEq, Repr

/-- The operations of a processor request (R112). -/
inductive ReqOp where
  | read | write | atomic (a : AtomicOp) | flush
  deriving DecidableEq, Repr

/-- The size codes of REQ_OP; code 3 names no size (R112). -/
inductive Size where
  | byte | half | word | noSize
  deriving DecidableEq, Repr

/-- A processor request as queued (R114). -/
structure PpRequest where
  op   : ReqOp
  size : Size
  tag  : Tag
  addr : ByteAddr
  opA  : Word
  opB  : Word
  deriving DecidableEq, Repr

/-- Where the executing processor request stands in the steps of R116 to R121 (the names are the model's, log 24). -/
inductive PpPhase where
  /-- Held at the fill fence (step 2). -/
  | fenceHold
  /-- A READ or atomic held by a lock entry (step 3). -/
  | lockHold
  /-- An atomic whose hold has ended and that has not yet acted (R64). -/
  | lockReleased
  /-- A WRITE whose merge write is held or waiting (R119). -/
  | merge
  /-- A READ waiting at the arbiter. -/
  | readWait
  /-- A READ in flight. -/
  | readAccess
  /-- An atomic with its lock entry in the table. -/
  | locked
  /-- A FLUSH in progress. -/
  | flushing
  deriving DecidableEq, Repr

/-- The executing processor request (R115). -/
structure PpExec where
  req   : PpRequest
  phase : PpPhase
  deriving DecidableEq, Repr

/-- The completion statuses a record can hold (R122). -/
inductive CplStatus where
  | ok | okCorrected | casFailed | alignFault | addressFault | regionFault | uncorrectable | entryFaulted
  | flushFaulted
  deriving DecidableEq, Repr

/-- A completion record (R122). -/
structure Completion where
  tag    : Tag
  op     : ReqOp
  status : CplStatus
  data   : Word
  deriving DecidableEq, Repr

/-- The outcomes of a submit (R113). -/
inductive SubmitStatus where
  | none | accepted | queueFull | invalid
  deriving DecidableEq, Repr

/-- The processor port: staging registers, both queues and the executing request (R112 to R123). -/
structure Ppt where
  reqOp        : Reg16
  reqAddr      : ByteAddr
  reqOpA       : Word
  reqOpB       : Word
  submitStatus : SubmitStatus
  prq          : List PpRequest
  exec         : Option PpExec
  cq           : List Completion
  cplData      : Word
  deriving DecidableEq, Repr

/-! ### The stream ports (chapter 07) -/

/-- The operations of a header (Table 7-1). -/
inductive StreamOp where
  | read | write | atomic (a : AtomicOp)
  deriving DecidableEq, Repr

/-- A queued header (R126). -/
structure Header where
  op     : StreamOp
  length : Nat
  tag    : Tag
  addr   : Addr
  deriving DecidableEq, Repr

/-- Port states (R130). -/
inductive PortState where
  | disabled | enabled | suspended | disabling
  deriving DecidableEq, Repr

/-- Suspend causes (R135). -/
inductive SuspendCause where
  | none | protocol | timeout | uncorrectable | fault
  deriving DecidableEq, Repr

/-- Burst phases (Table 7-5). -/
inductive BurstPhase where
  | readHold | readWait | readAccess | beatWait | merge | admitHold | operandWait | operandBlocked | locked
  deriving DecidableEq, Repr

/-- What holds a burst at its source, in READ_HOLD, ADMIT_HOLD and MERGE before issue (R143, R147, R150). -/
inductive HoldAt where
  | none | fence | lock
  deriving DecidableEq, Repr

/-- The executing burst (Table 7-4); `beat` is a write beat taken and held at the fence before its merge write is
issued (R147). -/
structure Burst where
  hdr     : Header
  done    : Nat
  phase   : BurstPhase
  hold    : HoldAt
  opA     : Option Word
  beat    : Option (Word × LaneMask)
  aborted : Bool
  deriving DecidableEq, Repr

/-- END statuses (R128). -/
inductive EndStatus where
  | ok | casFailed | addressFault | regionFault | uncorrectable | entryFaulted | aborted | protocol
  deriving DecidableEq, Repr

/-- Beat statuses (R128). -/
inductive BeatStatus where
  | clean | corrected | uncorrectable
  deriving DecidableEq, Repr

/-- The messages a stream port sends (Table 7-2). -/
inductive LinkMsg where
  | credit (count : Nat)
  | close
  | dataRequest (tag : Tag)
  | readBeat (tag : Tag) (data : Word) (status : BeatStatus)
  | endMsg (tag : Tag) (status : EndStatus) (done : Nat)
  deriving DecidableEq, Repr

/-- A stream port (Table 7-3). -/
structure StreamPort where
  state          : PortState
  /-- The Stream Request Queue, the executing header at its head (R129). -/
  srq            : List Header
  credits        : Nat
  burst          : Option Burst
  cause          : SuspendCause
  /-- The beat timer count (R152). -/
  timer          : Nat
  /-- The discarded-read flag: present while true, with the aborted burst's tag (R133, log 13). -/
  discardedRead  : Option Tag
  beatTimeout    : BitVec 8
  suspendOnFault : Bool
  /-- Frames waiting on the link, oldest first (R125). -/
  inbound        : List Frame
  /-- Messages sent, oldest first (R128, log 11). -/
  outbound       : List LinkMsg
  /-- The model's own (log 4): the timer reached its timeout at the latest tick and BEAT_TIMER_EXPIRY is due. -/
  expiryDue      : Bool
  deriving DecidableEq, Repr

/-- A stream port after device reset (R129, R156). -/
def StreamPort.default : StreamPort :=
  { state := .disabled, srq := [], credits := 0, burst := none, cause := .none, timer := 0, discardedRead := none,
    beatTimeout := 0#8, suspendOnFault := false, inbound := [], outbound := [], expiryDue := false }

/-! ### The scrub engine (chapter 08) -/

/-- Engine states (Table 8-2). -/
inductive ScrubState where
  | idle | patrolWait | patrolRequest | patrolAccess | fillRequest | fillAccess
  deriving DecidableEq, Repr

/-- The mode most recently started (Table 8-1). -/
inductive LastMode where
  | none | patrol | fill
  deriving DecidableEq, Repr

/-- How the latest fill stands (Table 8-1). -/
inductive FillResult where
  | none | running | done | stopped
  deriving DecidableEq, Repr

/-- The scrub engine (Table 8-1) and its registers (R158). -/
structure Scrub where
  state          : ScrubState
  stopPending    : Bool
  patrolPtr      : Addr
  intervalCount  : Nat
  passes         : Reg16
  fillFirst      : Addr
  fillLast       : Addr
  fillPattern    : Word
  fillPtr        : Addr
  lastMode       : LastMode
  fillResult     : FillResult
  regInterval    : Reg16
  regFillFirst   : Addr
  regFillLast    : Addr
  regFillPattern : Word
  /-- The model's own (log 4): the interval was reached at the latest tick and INTERVAL_EXPIRY is due. -/
  intervalDue    : Bool
  deriving DecidableEq, Repr

/-! ### The error log and the interrupt unit (chapter 09) -/

/-- Record kinds (R174). -/
inductive RecordKind where
  | corrected | uncorrectable | alignFault | addressFault | regionFault | mergeFault | protocol
  deriving DecidableEq, Repr

/-- Record sources (R174). -/
inductive Source where
  | pp | sp0 | sp1 | drain | scrub
  deriving DecidableEq, Repr

/-- Record accesses (R174). -/
inductive AccessType where
  | read | write | atomic | patrol
  deriving DecidableEq, Repr

/-- Causes of a PROTOCOL record (R174). -/
inductive ProtocolCause where
  | parity | opcode | credit | length | timeout
  deriving DecidableEq, Repr

/-- An error record (Table 9-1). -/
structure ErrorRecord where
  seq    : Reg16
  kind   : RecordKind
  source : Source
  addr   : Addr
  access : Option AccessType
  pos    : Option (BitVec 7)
  tag    : Option Tag
  entry  : Option (Fin 8)
  mask   : Option LaneMask
  cause  : Option ProtocolCause
  deriving DecidableEq, Repr

/-- The LOG_* view registers (R180). -/
structure LogView where
  seq    : Reg16
  kind   : Reg16
  addr   : Addr
  detail : Reg16
  deriving DecidableEq, Repr

/-- The error log and its counts (R175 to R182). -/
structure ErrorLog where
  records          : List ErrorRecord
  /-- The sequence counter (R176). -/
  seq              : Reg16
  overflow         : Bool
  view             : LogView
  cntCorrected     : Reg16
  cntUncorrectable : Reg16
  deriving DecidableEq, Repr

/-- The sticky sources and IRQ_ENABLE (R185, R186); the level sources and INT are computed. -/
structure Irq where
  mbBlocked : Bool
  scrubPass : Bool
  fillDone  : Bool
  haltDone  : Bool
  enable    : Reg16
  deriving DecidableEq, Repr

/-! ### The whole part -/

/-- The model's own fields (log 4). -/
structure Own where
  /-- How many free values have been taken. -/
  freeCount  : Nat
  /-- The array interface came back to IDLE at the present event, so that a grant is made only after all the
  requests of this event (R76). -/
  backToIdle : Bool
  deriving DecidableEq, Repr

/-- The state of the part and the queue of commands. -/
structure State where
  resetAsserted : Bool
  array         : ArrayMem
  aif           : Aif
  mb            : MergeBuffer
  wlt           : List LockEntry
  arb           : Arbiter
  acu           : Acu
  ctl           : Control
  cfg           : Settings
  ppt           : Ppt
  sp0           : StreamPort
  sp1           : StreamPort
  sce           : Scrub
  elog          : ErrorLog
  irq           : Irq
  own           : Own
  pending       : List Instr
  deriving DecidableEq, Repr

/-- The part right after reset (R199): every block at its defaults, RESET released, no command waiting. -/
def State.reset : State :=
  { resetAsserted := false
    array := []
    aif := { state := .idle, access := none }
    mb :=
      { entries := Vector.replicate 8 Entry.default, age := [], waiting := [], held := [],
        drain := { phase := .idle, entry := none }, faultedCount := 0,
        view := { state := 0#16, addr := 0#20, data := 0#32 } }
    wlt := []
    arb :=
      { slots := { pp := none, sp0 := none, sp1 := none, dr := none, ae := none, sc := none },
        pointer := .pp, bypass := 0 }
    acu :=
      { regions := Vector.replicate 16 Region.default, rgnFirst := 0#14, rgnLast := 0#14, rgnRights := 0#16,
        viewFirst := 0#14, viewLast := 0#14, viewRights := 0#16 }
    ctl :=
      { state := .halted, configRefused := false, cmdResult := .none, cmdCode := 0#8, prescaleCount := 0,
        readData := 0#16 }
    cfg := { memsize := 0#3, prescale := 1#16, lwm := 1#4, hwm := 6#4, protect := false, logging := true }
    ppt :=
      { reqOp := 0#16, reqAddr := 0#22, reqOpA := 0#32, reqOpB := 0#32, submitStatus := .none, prq := [],
        exec := none, cq := [], cplData := 0#32 }
    sp0 := StreamPort.default
    sp1 := StreamPort.default
    sce :=
      { state := .idle, stopPending := false, patrolPtr := 0#20, intervalCount := 0, passes := 0#16,
        fillFirst := 0#20, fillLast := 0#20, fillPattern := 0#32, fillPtr := 0#20, lastMode := .none,
        fillResult := .none, regInterval := 1024#16, regFillFirst := 0#20, regFillLast := 0#20,
        regFillPattern := 0#32, intervalDue := false }
    elog :=
      { records := [], seq := 0#16, overflow := false,
        view := { seq := 0#16, kind := 0#16, addr := 0#20, detail := 0#16 },
        cntCorrected := 0#16, cntUncorrectable := 0#16 }
    irq := { mbBlocked := false, scrubPass := false, fillDone := false, haltDone := false, enable := 0#16 }
    own := { freeCount := 0, backToIdle := false }
    pending := [] }

/-- Why the machine would stop with a fault. It has no constructor: the spec gives every command an effect, and
what the spec calls a fault is such an effect (a verdict, a record, a status). -/
inductive Fault where
  deriving DecidableEq, Repr

/-- Why the machine would refuse a command. -/
inductive Refusal where
  /-- A command that has no meaning yet, by its row's mnemonic. No arm of `exec` raises it: every row has its
  meaning. Safe: nothing is proved of a refused command. -/
  | notModelled (mnemonic : String)
  deriving DecidableEq, Repr

end Sys2Proof.Machine
end

