-- ==== Sys2Proof/Machine/Operands.lean ====
section
/-! DEFINITION. Bit fields: lanes and lane masks, byte addresses, the decode of a stored word, atomic values, and the
codes and layouts of operands, headers and link frames (chapters 01, 03, 06, 07, 10). -/

namespace Sys2Proof.Machine

/-! ### Lanes (R2, R3) -/

/-- The data bits of the lanes a mask names (R2). -/
def laneBits (m : LaneMask) : Word :=
  (if m.getLsbD 0 then 0x000000FF#32 else 0#32) ||| (if m.getLsbD 1 then 0x0000FF00#32 else 0#32) |||
  (if m.getLsbD 2 then 0x00FF0000#32 else 0#32) ||| (if m.getLsbD 3 then 0xFF000000#32 else 0#32)

/-- `top` laid over `under` on the lanes of `m` (R22, R30, R37). -/
def overlayLanes (under top : Word) (m : LaneMask) : Word :=
  (under &&& ~~~(laneBits m)) ||| (top &&& laneBits m)

/-- The mask `m` includes every lane of `need` (R29). -/
def covers (m need : LaneMask) : Bool := m &&& need == need

/-- The word a byte address lies in: `A` div 4 (R3). -/
def wordOf (a : ByteAddr) : Addr := a.extractLsb' 2 20

/-- The lane a byte address names: `A` mod 4 (R3). -/
def laneOf (a : ByteAddr) : Nat := a.toNat % 4

/-- The lanes a processor request covers (Table 1-2a). -/
def laneMaskOf (sz : Size) (a : ByteAddr) : LaneMask :=
  match sz with
  | .byte => 1#4 <<< laneOf a
  | .half => 3#4 <<< laneOf a
  | .word | .noSize => 15#4

/-- Operand A placed in the lanes of a WRITE (R119). -/
def writeLanes (sz : Size) (a : ByteAddr) (opA : Word) : Word :=
  match sz with
  | .byte => (opA &&& 0xFF#32) <<< (8 * laneOf a)
  | .half => (opA &&& 0xFFFF#32) <<< (8 * laneOf a)
  | .word | .noSize => opA

/-- The lanes of a READ placed right-justified and zero-extended (R117). -/
def readResult (sz : Size) (a : ByteAddr) (w : Word) : Word :=
  match sz with
  | .byte => (w >>> (8 * laneOf a)) &&& 0xFF#32
  | .half => (w >>> (8 * laneOf a)) &&& 0xFFFF#32
  | .word | .noSize => w

/-! ### The stored word and its decode (R1, R7 to R11) -/

/-- The positions 0 to 38 at which a stored word's bits are set in `x`. -/
def positions (x : Bits39) : List Nat := (List.range 39).filter (fun k => x.getLsbD k)

/-- The data bits last stored at the word (R7), or those of power-up (R11, log 6). -/
def StoredWord.stored (a : Addr) (w : StoredWord) : Word :=
  match w.base with
  | .written d => d
  | .powerUp => Config.powerUpData a

/-- The 32 data bits as a read samples them: positions 0 to 31 (R1, R9). -/
def StoredWord.sampled (a : Addr) (w : StoredWord) : Word := w.stored a ^^^ w.flips.setWidth 32

/-- The 39 bits of the stored word, check bits at positions 32 to 38 (R1, log 8). -/
def StoredWord.bits (a : Addr) (w : StoredWord) : Bits39 :=
  (Config.checkBits (w.stored a) ++ w.stored a : BitVec 39) ^^^ w.flips

/-- One of the outcomes a read can report, by a free number: CLEAN, CORRECTED at 1 to 39, or UNCORRECTABLE (R8). -/
def freeOutcome (n : Nat) : DecodeOutcome :=
  if n % 41 = 0 then .clean else if n % 41 = 40 then .uncorrectable else .corrected (BitVec.ofNat 7 (n % 41))

/-- The decode outcome of a stored word (Table 1-3). -/
def StoredWord.outcome (a : Addr) (w : StoredWord) : DecodeOutcome :=
  match w.base with
  | .powerUp => freeOutcome (Config.powerUpOutcome a w.flips)
  | .written d =>
    match positions w.flips with
    | [] => .clean
    | [p] => .corrected (BitVec.ofNat 7 (p + 1))
    | [_, _] => .uncorrectable
    | _ => freeOutcome (Config.decodeMany d w.flips)

/-- The data word a read hands over with its outcome: a corrected data bit is inverted back (R9). -/
def deliveredData (sampled : Word) : DecodeOutcome → Word
  | .corrected pos => if pos.toNat ≤ 32 then sampled ^^^ (1#32 <<< (pos.toNat - 1)) else sampled
  | .clean | .uncorrectable => sampled

/-- What the array interface hands to the requester of a read: data and outcome (R9). -/
def StoredWord.read (a : Addr) (w : StoredWord) : Word × DecodeOutcome :=
  (deliveredData (w.sampled a) (w.outcome a), w.outcome a)

/-- A word as the array interface writes it, with fresh check bits (R7). -/
def StoredWord.fresh (d : Word) : StoredWord := { base := .written d, flips := 0#39 }

/-! ### Atomic operations (Table 3-1) -/

/-- The new value an atomic writes; none when a COMPARE_SWAP's comparison fails (R52). -/
def AtomicOp.newValue (op : AtomicOp) (a : Word) (b : Option Word) (old : Word) : Option Word :=
  match op with
  | .fetchAdd => some (old + a)
  | .fetchOr => some (old ||| a)
  | .fetchClear => some (old &&& ~~~a)
  | .swap => some a
  | .compareSwap => if old = a then b else none

/-! ### Codes (Tables 10-4, 10-6, 10-7, 10-9, 10-10, 10-12) -/

/-- The atomic operation of an operation code. -/
def atomicOfCode : Nat → Option AtomicOp
  | 2 => some .fetchAdd
  | 3 => some .fetchOr
  | 4 => some .fetchClear
  | 5 => some .swap
  | 6 => some .compareSwap
  | _ => none

/-- The operation code of an atomic (Table 10-4). -/
def AtomicOp.code : AtomicOp → Nat
  | .fetchAdd => 2
  | .fetchOr => 3
  | .fetchClear => 4
  | .swap => 5
  | .compareSwap => 6

/-- The operation of REQ_OP bits 3:0 (Table 10-4); 8 to 15 name none. -/
def reqOpOfCode (c : Nat) : Option ReqOp :=
  match c with
  | 0 => some .read
  | 1 => some .write
  | 7 => some .flush
  | _ => (atomicOfCode c).map .atomic

/-- The operation code of a processor request (Table 10-4). -/
def ReqOp.code : ReqOp → Nat
  | .read => 0
  | .write => 1
  | .atomic a => a.code
  | .flush => 7

/-- The operation of HEADER bits 34:32 (R196); code 7 names none. -/
def streamOpOfCode (c : Nat) : Option StreamOp :=
  match c with
  | 0 => some .read
  | 1 => some .write
  | _ => (atomicOfCode c).map .atomic

/-- The operation code of a header. -/
def StreamOp.code : StreamOp → Nat
  | .read => 0
  | .write => 1
  | .atomic a => a.code

/-- The size of REQ_OP bits 5:4 (Table 10-4). -/
def sizeOfCode (c : BitVec 2) : Size :=
  if c = 0#2 then .byte else if c = 1#2 then .half else if c = 2#2 then .word else .noSize

/-- Controller state codes. -/
def CtrlState.code : CtrlState → Nat
  | .halted => 0
  | .running => 1
  | .quiescing => 2

/-- Submit outcome codes. -/
def SubmitStatus.code : SubmitStatus → Nat
  | .none => 0
  | .accepted => 1
  | .queueFull => 2
  | .invalid => 3

/-- Completion status codes; 0 is EMPTY, which no record holds. -/
def CplStatus.code : CplStatus → Nat
  | .ok => 1
  | .okCorrected => 2
  | .casFailed => 3
  | .alignFault => 4
  | .addressFault => 5
  | .regionFault => 6
  | .uncorrectable => 7
  | .entryFaulted => 8
  | .flushFaulted => 9

/-- COMMAND_RESULT codes (Table 10-10). -/
def CmdResult.code : CmdResult → Nat
  | .none => 0
  | .done => 1
  | .refusedState => 2
  | .refusedArgument => 3
  | .unknown => 4

/-- Entry state codes (Table 10-6). -/
def EntryState.code : EntryState → Nat
  | .free => 0
  | .pending => 1
  | .reading => 2
  | .writing => 3
  | .faulted => 4

/-- Port state codes (Table 10-6). -/
def PortState.code : PortState → Nat
  | .disabled => 0
  | .enabled => 1
  | .suspended => 2
  | .disabling => 3

/-- Suspend cause codes (Table 10-6). -/
def SuspendCause.code : SuspendCause → Nat
  | .none => 0
  | .protocol => 1
  | .timeout => 2
  | .uncorrectable => 3
  | .fault => 4

/-- Burst phase codes (Table 10-6). -/
def BurstPhase.code : BurstPhase → Nat
  | .readHold => 0
  | .readWait => 1
  | .readAccess => 2
  | .beatWait => 3
  | .merge => 4
  | .admitHold => 5
  | .operandWait => 6
  | .operandBlocked => 7
  | .locked => 8

/-- Scrub engine state codes (Table 10-7). -/
def ScrubState.code : ScrubState → Nat
  | .idle => 0
  | .patrolWait => 1
  | .patrolRequest => 2
  | .patrolAccess => 3
  | .fillRequest => 4
  | .fillAccess => 5

/-- Last mode codes (Table 10-7). -/
def LastMode.code : LastMode → Nat
  | .none => 0
  | .patrol => 1
  | .fill => 2

/-- Fill result codes (Table 10-7). -/
def FillResult.code : FillResult → Nat
  | .none => 0
  | .running => 1
  | .done => 2
  | .stopped => 3

/-- Record kind codes (Table 10-7). -/
def RecordKind.code : RecordKind → Nat
  | .corrected => 1
  | .uncorrectable => 2
  | .alignFault => 3
  | .addressFault => 4
  | .regionFault => 5
  | .mergeFault => 6
  | .protocol => 7

/-- Record source codes (Table 10-7). -/
def Source.code : Source → Nat
  | .pp => 0
  | .sp0 => 1
  | .sp1 => 2
  | .drain => 3
  | .scrub => 4

/-- Access codes (Table 10-8). -/
def AccessType.code : AccessType → Nat
  | .read => 1
  | .write => 2
  | .atomic => 3
  | .patrol => 4

/-- Cause codes (Table 10-8). -/
def ProtocolCause.code : ProtocolCause → Nat
  | .parity => 1
  | .opcode => 2
  | .credit => 3
  | .length => 4
  | .timeout => 5

/-- END status codes (Table 10-12). -/
def EndStatus.code : EndStatus → Nat
  | .ok => 0
  | .casFailed => 1
  | .addressFault => 2
  | .regionFault => 3
  | .uncorrectable => 4
  | .entryFaulted => 5
  | .aborted => 6
  | .protocol => 7

/-- Beat status codes (Table 10-12). -/
def BeatStatus.code : BeatStatus → Nat
  | .clean => 0
  | .corrected => 1
  | .uncorrectable => 2

/-- The beat status of a delivered outcome (R144). -/
def DecodeOutcome.beatStatus : DecodeOutcome → BeatStatus
  | .clean => .clean
  | .corrected _ => .corrected
  | .uncorrectable => .uncorrectable

/-- The completion status of a delivered outcome (R117). -/
def DecodeOutcome.cplStatus : DecodeOutcome → CplStatus
  | .clean => .ok
  | .corrected _ => .okCorrected
  | .uncorrectable => .uncorrectable

/-- The record source of a port. -/
def portSource : Port → Source
  | .pp => .pp
  | .sp0 => .sp0
  | .sp1 => .sp1

/-- The requester that reads for a port (R74). -/
def portRequester : Port → Requester
  | .pp => .pp
  | .sp0 => .sp0
  | .sp1 => .sp1

/-- The access field of a processor request's records (R92, R100). -/
def ReqOp.access : ReqOp → AccessType
  | .read | .flush => .read
  | .write => .write
  | .atomic _ => .atomic

/-- The access field of a header's records (R92, R100). -/
def StreamOp.access : StreamOp → AccessType
  | .read => .read
  | .write => .write
  | .atomic _ => .atomic

/-! ### Frames from the peripheral (Table 10-11) -/

/-- HEADER: the word address as received, bits 23:4. -/
def headerAddr (f : Frame) : Addr := f.extractLsb' 4 20

/-- HEADER: the tag as received, bits 27:24. -/
def headerTag (f : Frame) : Tag := f.extractLsb' 24 4

/-- HEADER: the length, one more than bits 31:28. -/
def headerLength (f : Frame) : Nat := (f.extractLsb' 28 4).toNat + 1

/-- HEADER: the operation code, bits 34:32. -/
def headerOpCode (f : Frame) : Nat := (f.extractLsb' 32 3).toNat

/-- HEADER: the number of set bits of frame bits 35:4 is odd (R196). -/
def headerParityOdd (f : Frame) : Bool :=
  ((List.range 32).filter (fun k => f.getLsbD (4 + k))).length % 2 == 1

/-- WRITE_BEAT and ABORT: the tag, bits 7:4. -/
def beatTag (f : Frame) : Tag := f.extractLsb' 4 4

/-- WRITE_BEAT: the lane mask, bits 11:8. -/
def beatMask (f : Frame) : LaneMask := f.extractLsb' 8 4

/-- WRITE_BEAT: the data, bits 43:12. -/
def beatData (f : Frame) : Word := f.extractLsb' 12 32

/-! ### Frames from the port (Table 10-12, R197) -/

/-- The frame of a message the port sends. -/
def LinkMsg.frame : LinkMsg → Frame
  | .credit n => 1#48 ||| (BitVec.ofNat 48 (n % 8) <<< 4)
  | .close => 2#48
  | .dataRequest t => 3#48 ||| (t.setWidth 48 <<< 4)
  | .readBeat t d st => 4#48 ||| (t.setWidth 48 <<< 4) ||| (BitVec.ofNat 48 st.code <<< 8) ||| (d.setWidth 48 <<< 12)
  | .endMsg t st n =>
    5#48 ||| (t.setWidth 48 <<< 4) ||| (BitVec.ofNat 48 st.code <<< 8) ||| (BitVec.ofNat 48 (n % 32) <<< 12)

/-! ### Region rights (Table 10-5) -/

/-- One port's rights from three bits: R, W, A. -/
def PortRights.ofBits (b : BitVec 3) : PortRights := { r := b.getLsbD 0, w := b.getLsbD 1, a := b.getLsbD 2 }

/-- The three bits of one port's rights. -/
def PortRights.code (p : PortRights) : Nat := p.r.toNat + 2 * p.w.toNat + 4 * p.a.toNat

/-- The stored bits of RGN_RIGHTS (R95, Table 10-5). -/
def rightsStored : Reg16 := 0x8777#16

/-- The layout of RGNV_RIGHTS (R98). -/
def Region.rightsBits (d : Region) : Reg16 :=
  BitVec.ofNat 16 (d.pp.code + 16 * d.sp0.code + 256 * d.sp1.code + 32768 * d.enabled.toNat)

/-- The descriptor the staging registers name (R96). -/
def Region.ofStaged (first last : BitVec 14) (rights : Reg16) : Region :=
  { first := first
    last := last
    pp := .ofBits (rights.extractLsb' 0 3)
    sp0 := .ofBits (rights.extractLsb' 4 3)
    sp1 := .ofBits (rights.extractLsb' 8 3)
    enabled := rights.getLsbD 15 }

/-- The rights a descriptor gives a port (R90). -/
def Region.rightsOf (d : Region) : Port → PortRights
  | .pp => d.pp
  | .sp0 => d.sp0
  | .sp1 => d.sp1

/-- The right a request's kind needs (R92). -/
def PortRights.grants (p : PortRights) : AccessType → Bool
  | .read => p.r
  | .write => p.w
  | .atomic => p.a
  | .patrol => false

/-- The block of a word (00, Data units). -/
def blockOf (a : Addr) : BitVec 14 := a.extractLsb' 6 14

end Sys2Proof.Machine
end

