-- ==== Sys2Proof/Machine/Flags.lean ====
section
/-! DEFINITION. Conditions and flags computed from the state: the merge buffer's counts and queries, the fence, the lock
holds, the quiesce conditions, urgency, the interrupt sources and INT, and the memory bus. -/

namespace Sys2Proof.Machine

/-! ### The merge buffer (R19, R29, R34, R48, R49) -/

/-- The entry numbers, lowest first. -/
def entryIds : List (Fin 8) := [0, 1, 2, 3, 4, 5, 6, 7]

/-- Entry `e`. -/
def MergeBuffer.entry (mb : MergeBuffer) (e : Fin 8) : Entry := mb.entries[e]

/-- The entry is not FREE. -/
def Entry.active (e : Entry) : Bool := e.state != .free

/-- The entry is PENDING, READING or WRITING: neither FREE nor FAULTED (R34). -/
def Entry.live (e : Entry) : Bool := e.state == .pending || e.state == .reading || e.state == .writing

/-- The entry is not FREE and holds word `w`. -/
def Entry.holds (e : Entry) (w : Addr) : Bool := e.active && e.addr == w

/-- The non-FREE entry for a word: there is at most one (R18). -/
def MergeBuffer.entryFor (mb : MergeBuffer) (w : Addr) : Option (Fin 8) :=
  entryIds.find? fun e => (mb.entry e).holds w

/-- The lowest-numbered FREE entry (R25). -/
def MergeBuffer.firstFree (mb : MergeBuffer) : Option (Fin 8) :=
  entryIds.find? fun e => (mb.entry e).state == .free

/-- How many entries pass a test. -/
def MergeBuffer.count (mb : MergeBuffer) (test : Entry → Bool) : Nat :=
  (entryIds.filter fun e => test (mb.entry e)).length

/-- Some entry passes a test. -/
def MergeBuffer.anyEntry (mb : MergeBuffer) (test : Entry → Bool) : Bool := entryIds.any fun e => test (mb.entry e)

/-- The oldest entry that passes a test, by the age list (R19). -/
def MergeBuffer.oldest (mb : MergeBuffer) (test : Entry → Bool) : Option (Fin 8) :=
  mb.age.find? fun e => test (mb.entry e)

/-- The age position: how many non-FREE entries are older (R19); 0 for a FREE entry. -/
def MergeBuffer.agePosition (mb : MergeBuffer) (e : Fin 8) : Nat :=
  if (mb.entry e).active then (mb.age.takeWhile (· != e)).length else 0

/-- Some FAULTED entry exists for the word (R162). -/
def MergeBuffer.faultedFor (mb : MergeBuffer) (w : Addr) : Bool :=
  mb.anyEntry fun e => e.state == .faulted && e.addr == w

/-- All FREE (R48). -/
def MergeBuffer.allFree (mb : MergeBuffer) : Bool := !mb.anyEntry Entry.active

/-- The buffer's quiesce condition: every entry is FREE or FAULTED (R48). -/
def MergeBuffer.quiet (mb : MergeBuffer) : Bool := !mb.anyEntry Entry.live

/-- A word lies in a range, first to last inclusive. -/
def inRange (first last w : Addr) : Bool := first ≤ w && w ≤ last

/-- The buffer's range test (R48): a non-FREE entry, or a merge write waiting or held, lies in the range. -/
def MergeBuffer.rangeBusy (mb : MergeBuffer) (first last : Addr) : Bool :=
  mb.anyEntry (fun e => e.active && inRange first last e.addr) ||
  (mb.waiting ++ mb.held).any fun m => inRange first last m.addr

/-! ### Installed size (R4) -/

/-- The installed size in words (Table 1-2). -/
def Settings.size (c : Settings) : Nat := 65536 * 2 ^ c.memsize.toNat

/-! ### Locks and the fence (R55, R64, R79, R168) -/

/-- The lock table holds an entry for the word (R64). -/
def State.locked (s : State) (w : Addr) : Bool := s.wlt.any (·.addr == w)

/-- The lock table holds an entry of the port (R54). -/
def State.hasLock (s : State) (q : Port) : Bool := s.wlt.any (·.port == q)

/-- The entry first for a word: the oldest of the word (R55). -/
def State.firstLock (s : State) (w : Addr) : Option LockEntry := s.wlt.find? (·.addr == w)

/-- Fill mode (R79). -/
def ScrubState.fillMode : ScrubState → Bool
  | .fillRequest | .fillAccess => true
  | .idle | .patrolWait | .patrolRequest | .patrolAccess => false

/-- Patrol mode (R79). -/
def ScrubState.patrolMode : ScrubState → Bool
  | .patrolWait | .patrolRequest | .patrolAccess => true
  | .idle | .fillRequest | .fillAccess => false

/-- The word lies within the fence (R168). -/
def State.fenced (s : State) (w : Addr) : Bool := s.sce.state.fillMode && inRange s.sce.fillPtr s.sce.fillLast w

/-! ### The stream ports -/

/-- Stream port `p`. -/
def State.sp (s : State) (p : SpId) : StreamPort :=
  match p with
  | .sp0 => s.sp0
  | .sp1 => s.sp1

/-- The burst's current word: first word plus done count (Table 7-4). -/
def Burst.word (b : Burst) : Addr := b.hdr.addr + BitVec.ofNat 20 b.done

/-- The burst is awaiting beats: from its DATA_REQUEST until its last beat has been taken (R127). -/
def Burst.awaiting (b : Burst) : Bool :=
  match b.phase with
  | .beatWait | .operandWait | .operandBlocked => true
  | .merge => b.done + 1 < b.hdr.length
  | .readHold | .readWait | .readAccess | .admitHold | .locked => false

/-- The next operand beat of an atomic is its last: not the first of a COMPARE_SWAP (R150). -/
def Burst.lastOperand (b : Burst) : Bool := !(b.hdr.op == .atomic .compareSwap && b.opA.isNone)

/-- The port is ready for its burst's next beat (R57, R146, R150). -/
def State.beatReady (s : State) (p : SpId) (b : Burst) : Bool :=
  match b.phase with
  | .beatWait => true
  | .operandWait | .operandBlocked => !(b.lastOperand && s.hasLock p.port)
  | .merge | .readHold | .readWait | .readAccess | .admitHold | .locked => false

/-- The frame is a beat of the burst that awaits beats (R127). -/
def State.matchingBeat (s : State) (p : SpId) (f : Frame) : Bool :=
  match (s.sp p).burst with
  | none => false
  | some b => frameType f == 2#4 && b.awaiting && beatTag f == b.hdr.tag

/-- The port takes the frame when it stands first on the link: anything but a matching beat it is not ready for
(R125). -/
def State.canTake (s : State) (p : SpId) (f : Frame) : Bool :=
  match (s.sp p).burst with
  | none => true
  | some b => !s.matchingBeat p f || s.beatReady p b

/-- A matching beat is waiting on the link (R152). -/
def State.beatOnLink (s : State) (p : SpId) : Bool :=
  match (s.sp p).inbound with
  | [] => false
  | f :: _ => s.matchingBeat p f

/-- The beat timer runs (R152). -/
def State.timerRuns (s : State) (p : SpId) : Bool :=
  (s.sp p).beatTimeout != 0#8 &&
  (match (s.sp p).burst with
   | some b => b.phase == .beatWait || b.phase == .operandWait
   | none => false) &&
  !s.beatOnLink p

/-- A port that gives a credit back with an END: ENABLED or SUSPENDED (R137). -/
def PortState.credited : PortState → Bool
  | .enabled | .suspended => true
  | .disabled | .disabling => false

/-! ### Quiesce (R105) -/

/-- The six quiesce conditions, in the order of R105. -/
def State.quiesceConditions (s : State) : List Bool :=
  [s.ppt.exec.isNone, s.sp0.burst.isNone && s.sp1.burst.isNone, s.wlt.isEmpty, s.mb.quiet, s.aif.state == .idle,
   s.sce.state == .idle]

/-- All six hold. -/
def State.quiesced (s : State) : Bool := s.quiesceConditions.all id

/-! ### The arbiter (R73, R75, R77, R78, R83) -/

/-- The request in a requester's slot. -/
def Slots.get (sl : Slots) : Requester → Option Request
  | .pp => sl.pp
  | .sp0 => sl.sp0
  | .sp1 => sl.sp1
  | .dr => sl.dr
  | .ae => sl.ae
  | .sc => sl.sc

/-- The drain engine's waiting request is urgent: the entries neither FREE nor FAULTED are at least HWM (R34). -/
def State.urgent (s : State) : Bool := s.arb.slots.dr.isSome && s.cfg.hwm.toNat ≤ s.mb.count Entry.live

/-- The requester has a request waiting that the controller state allows to be granted: in HALTED a resolve write
alone (R83). -/
def State.grantable (s : State) (r : Requester) : Bool :=
  (s.arb.slots.get r).isSome &&
  (s.ctl.state != .halted || (r == .dr && s.mb.drain.phase == .resolveWait))

/-- The ring, with SC after AE in fill mode (R78). -/
def ringMembers (fill : Bool) : List Requester := [.pp, .sp0, .sp1, .dr, .ae] ++ (if fill then [.sc] else [])

/-- The member that follows in ring order (R78). -/
def ringNext (fill : Bool) : Requester → Requester
  | .pp => .sp0
  | .sp0 => .sp1
  | .sp1 => .dr
  | .dr => .ae
  | .ae => if fill then .sc else .pp
  | .sc => .pp

/-- The ring in order from the pointer; a pointer that names SC while SC is no member counts as PP (R79). -/
def ringFrom (fill : Bool) (ptr : Requester) : List Requester :=
  let ms := ringMembers fill
  let q := if ptr == .sc && !fill then .pp else ptr
  ms.dropWhile (· != q) ++ ms.takeWhile (· != q)

/-- The winner of a grant and whether it won at tier 3 (Table 4-2). -/
def State.winner (s : State) : Option (Requester × Bool) :=
  if s.urgent && s.grantable .dr then some (.dr, false)
  else if s.grantable .sc && s.arb.bypass == 16 then some (.sc, false)
  else
    match (ringFrom s.sce.state.fillMode s.arb.pointer).find? s.grantable with
    | some r => some (r, true)
    | none => if s.grantable .sc && s.sce.state.patrolMode then some (.sc, false) else none

/-! ### Interrupt sources and the INT pin (R184 to R186) -/

/-- IRQ_PENDING: the six level sources as their conditions stand and the four sticky ones as held (R186). -/
def State.irqPending (s : State) : Reg16 :=
  BitVec.ofNat 16
    ((!s.ppt.cq.isEmpty).toNat + 2 * (!s.elog.records.isEmpty).toNat + 4 * s.elog.overflow.toNat +
     8 * (s.sp0.state == .suspended).toNat + 16 * (s.sp1.state == .suspended).toNat +
     32 * (s.mb.anyEntry fun e => e.state == .faulted).toNat + 256 * s.irq.mbBlocked.toNat +
     512 * s.irq.scrubPass.toNat + 1024 * s.irq.fillDone.toNat + 2048 * s.irq.haltDone.toNat)

/-- The INT output: a source is pending and enabled, and RESET is not asserted (R186, R198). -/
def State.intPin (s : State) : Bool := !s.resetAsserted && s.irqPending &&& s.irq.enable != 0#16

/-! ### The memory bus (R1, Table 1-6) -/

/-- The memory bus: the enables, the address lines and the data-and-check lines when the part drives them. -/
structure MemBus where
  chipEnable   : Bool
  outputEnable : Bool
  writeEnable  : Bool
  address      : Option Addr
  driven       : Option Bits39
  deriving DecidableEq, Repr

/-- The memory bus as the array interface drives it (Table 1-6): a read drives the address, a write also all 39
data-and-check lines (R1, R7). -/
def State.memBus (s : State) : MemBus :=
  match s.aif.state, s.aif.access with
  | .reading, some a | .pairedRead, some a =>
    { chipEnable := true, outputEnable := true, writeEnable := false, address := some a.addr, driven := none }
  | .writing, some a | .pairedWrite, some a =>
    { chipEnable := true, outputEnable := false, writeEnable := true, address := some a.addr,
      driven := a.writeData.map fun d => (StoredWord.fresh d).bits a.addr }
  | _, _ =>
    { chipEnable := false, outputEnable := false, writeEnable := false, address := none, driven := none }

end Sys2Proof.Machine
end

