-- ==== Sys2Proof/Machine/Ops.lean ====
section
/-! DEFINITION. The named operations over the state: the setters, the array's memory, free values, the error log, the
arbiter's slots, the array interface, completing a processor request, and sending and ending on a stream port. -/

namespace Sys2Proof.Machine

/-! ### Setters -/

/-- The state with `resetAsserted` replaced. -/
def State.setReset (s : State) (x : Bool) : State := { s with resetAsserted := x }

/-- The state with `array` replaced. -/
def State.setArray (s : State) (x : ArrayMem) : State := { s with array := x }

/-- The state with `aif` replaced. -/
def State.setAif (s : State) (x : Aif) : State := { s with aif := x }

/-- The state with `mb` replaced. -/
def State.setMb (s : State) (x : MergeBuffer) : State := { s with mb := x }

/-- The state with `wlt` replaced. -/
def State.setWlt (s : State) (x : List LockEntry) : State := { s with wlt := x }

/-- The state with `arb` replaced. -/
def State.setArb (s : State) (x : Arbiter) : State := { s with arb := x }

/-- The state with `acu` replaced. -/
def State.setAcu (s : State) (x : Acu) : State := { s with acu := x }

/-- The state with `ctl` replaced. -/
def State.setCtl (s : State) (x : Control) : State := { s with ctl := x }

/-- The state with `cfg` replaced. -/
def State.setCfg (s : State) (x : Settings) : State := { s with cfg := x }

/-- The state with `ppt` replaced. -/
def State.setPpt (s : State) (x : Ppt) : State := { s with ppt := x }

/-- The state with `sce` replaced. -/
def State.setSce (s : State) (x : Scrub) : State := { s with sce := x }

/-- The state with `elog` replaced. -/
def State.setElog (s : State) (x : ErrorLog) : State := { s with elog := x }

/-- The state with `irq` replaced. -/
def State.setIrq (s : State) (x : Irq) : State := { s with irq := x }

/-- The state with `own` replaced. -/
def State.setOwn (s : State) (x : Own) : State := { s with own := x }

/-- The state with `pending` replaced. -/
def State.setPending (s : State) (x : List Instr) : State := { s with pending := x }

/-- The state with stream port `p` replaced. -/
def State.setSp (s : State) (p : SpId) (x : StreamPort) : State :=
  match p with
  | .sp0 => { s with sp0 := x }
  | .sp1 => { s with sp1 := x }

/-- The buffer with entry `e` replaced. -/
def MergeBuffer.setEntry (mb : MergeBuffer) (e : Fin 8) (x : Entry) : MergeBuffer :=
  { mb with entries := mb.entries.set e x }

/-! ### The array's memory (R7, R8, R11) -/

/-- The stored word at an address; an unlisted address is untouched since power-up (log 6). -/
def ArrayMem.get (m : ArrayMem) (a : Nat) : StoredWord :=
  match m with
  | [] => .untouched
  | (k, w) :: rest => if k = a then w else ArrayMem.get rest a

/-- The array with one stored word replaced, in canonical form. -/
def ArrayMem.put (m : ArrayMem) (a : Nat) (w : StoredWord) : ArrayMem :=
  match m with
  | [] => if w = .untouched then [] else [(a, w)]
  | (k, v) :: rest =>
    if a < k then (if w = .untouched then (k, v) :: rest else (a, w) :: (k, v) :: rest)
    else if a = k then (if w = .untouched then rest else (a, w) :: rest)
    else (k, v) :: ArrayMem.put rest a w

/-- Every address of the list is above `lo`, they rise, and no entry is untouched. -/
def ArrayMem.wfFrom (lo : Nat) (m : ArrayMem) : Bool :=
  match m with
  | [] => true
  | (k, w) :: rest => lo ≤ k && w != .untouched && ArrayMem.wfFrom (k + 1) rest

/-- The canonical form: addresses strictly rising, no entry equal to what an unlisted address holds. -/
def ArrayMem.wf (m : ArrayMem) : Bool := ArrayMem.wfFrom 0 m

/-- The stored word at a word address. -/
def State.wordAt (s : State) (a : Addr) : StoredWord := s.array.get a.toNat

/-- The array interface stores a word with fresh check bits (R7). -/
def State.storeWord (s : State) (a : Addr) (d : Word) : State := s.setArray (s.array.put a.toNat (.fresh d))

/-- What a read of the word hands over: data and outcome (R9). The 39 bits are those that stand at the read's completion,
where every caller asks; the spec does not say at which moment of the access they are sampled (the model's choice,
log 28). -/
def State.readArray (s : State) (a : Addr) : Word × DecodeOutcome := (s.wordAt a).read a

/-! ### Free values (log 4) -/

/-- One more free value has been taken. -/
def State.bumpFree (s : State) : State := s.setOwn { s.own with freeCount := s.own.freeCount + 1 }

/-! ### The error log (R175 to R177, R182) -/

/-- A record without its optional fields. -/
def ErrorRecord.base (kind : RecordKind) (source : Source) (addr : Addr) : ErrorRecord :=
  { seq := 0#16, kind := kind, source := source, addr := addr, access := none, pos := none, tag := none,
    entry := none, mask := none, cause := none }

/-- The log takes a record: numbered by the sequence counter and kept at the tail, or dropped when 8 are held. The
counter stands still at a drop while it equals the oldest record's number (R176, R177). -/
def State.logRecord (s : State) (r : ErrorRecord) : State :=
  if s.elog.records.length < 8 then
    s.setElog { s.elog with records := s.elog.records ++ [{ r with seq := s.elog.seq }], seq := s.elog.seq + 1 }
  else
    s.setElog
      { s.elog with
        overflow := true
        seq := if (s.elog.records.head?.map (·.seq)) == some s.elog.seq then s.elog.seq else s.elog.seq + 1 }

/-- A count that stays at 65535 (R182). -/
def saturatingInc (c : Reg16) : Reg16 := if c = 0xFFFF#16 then c else c + 1

/-- The counts of one array read completion, by the array outcome (R182). -/
def State.countOutcome (s : State) (o : DecodeOutcome) : State :=
  match o with
  | .clean => s
  | .corrected _ => s.setElog { s.elog with cntCorrected := saturatingInc s.elog.cntCorrected }
  | .uncorrectable => s.setElog { s.elog with cntUncorrectable := saturatingInc s.elog.cntUncorrectable }

/-- The CORRECTED or UNCORRECTABLE record of an array outcome, the first only while the corrected-error enable is on
(R175, R181). -/
def State.recordOutcome (s : State) (o : DecodeOutcome) (r : ErrorRecord) : State :=
  match o with
  | .clean => s
  | .corrected pos => if s.cfg.logging then s.logRecord { r with kind := .corrected, pos := some pos } else s
  | .uncorrectable => s.logRecord { r with kind := .uncorrectable, pos := some 127#7 }

/-- Counts and record of a port's or the patrol's array read, by the array outcome (R118, R144, R66, R162). -/
def State.reportRead (s : State) (o : DecodeOutcome) (source : Source) (addr : Addr) (access : AccessType)
    (tag : Option Tag) : State :=
  (s.countOutcome o).recordOutcome o
    { ErrorRecord.base .corrected source addr with access := some access, tag := tag }

/-! ### The arbiter's slots (R73, R80, R82) -/

/-- The slots with one requester's slot replaced. -/
def Slots.put (sl : Slots) (r : Requester) (x : Option Request) : Slots :=
  match r with
  | .pp => { sl with pp := x }
  | .sp0 => { sl with sp0 := x }
  | .sp1 => { sl with sp1 := x }
  | .dr => { sl with dr := x }
  | .ae => { sl with ae := x }
  | .sc => { sl with sc := x }

/-- A requester's slot is filled or emptied. -/
def State.setSlot (s : State) (r : Requester) (x : Option Request) : State :=
  s.setArb { s.arb with slots := s.arb.slots.put r x }

/-- A requester asks for an access (R74). -/
def State.request (s : State) (r : Requester) (k : AccessKind) (a : Addr) : State :=
  s.setSlot r (some { kind := k, addr := some a })

/-- The scrub engine's request is withdrawn and the bypass count returns to 0 (R80). -/
def State.withdrawScrub (s : State) : State :=
  s.setArb { s.arb with slots := s.arb.slots.put .sc none, bypass := 0 }

/-! ### The array interface (R12 to R15) -/

/-- An access begins at its grant. -/
def State.beginAccess (s : State) (k : AccessKind) (r : Requester) (a : Addr) (d : Option Word) : State :=
  s.setAif
    { state := match k with
        | .read => .reading
        | .write => .writing
        | .paired => .pairedRead
      access := some { kind := k, requester := r, addr := a, writeData := d, readData := none, outcome := none } }

/-- The access ends and the interface returns to IDLE (R13 to R15). -/
def State.endAccess (s : State) : State :=
  (s.setAif { state := .idle, access := none }).setOwn { s.own with backToIdle := true }

/-- The owner of a paired access asks for its write at the read completion (R15). -/
def State.pairedWrite (s : State) (acc : Access) (read : Word × DecodeOutcome) (d : Word) : State :=
  s.setAif
    { state := .pairedWrite
      access := some { acc with writeData := some d, readData := some read.1, outcome := some read.2 } }

/-- The access in flight, when the interface stands in the given state for the given requester. -/
def State.inFlight (s : State) (st : AifState) (r : Requester) : Option Access :=
  if s.aif.state = st then s.aif.access.filter fun a => a.requester == r else none

/-! ### The processor port (R115, R122) -/

/-- The executing request stands at another step. -/
def State.setPpPhase (s : State) (ph : PpPhase) : State :=
  match s.ppt.exec with
  | none => s
  | some x => s.setPpt { s.ppt with exec := some { x with phase := ph } }

/-- The executing request completes: its record enters the Completion Queue (R122). -/
def State.ppComplete (s : State) (st : CplStatus) (data : Word) : State :=
  match s.ppt.exec with
  | none => s
  | some x =>
    s.setPpt
      { s.ppt with
        exec := none
        cq := s.ppt.cq ++ [{ tag := x.req.tag, op := x.req.op, status := st, data := data }] }

/-! ### The stream ports (R128, R135, R137) -/

/-- The port sends messages, in order (R125). -/
def State.send (s : State) (p : SpId) (ms : List LinkMsg) : State :=
  s.setSp p { s.sp p with outbound := (s.sp p).outbound ++ ms }

/-- The executing burst changes. -/
def State.setBurst (s : State) (p : SpId) (b : Option Burst) : State := s.setSp p { s.sp p with burst := b }

/-- The burst enters BEAT_WAIT or OPERAND_WAIT with the beat timer count 0 (R152). -/
def State.awaitBeat (s : State) (p : SpId) (b : Burst) (ph : BurstPhase) : State :=
  s.setSp p { s.sp p with
      burst := some { b with phase := ph, hold := .none, beat := none }, timer := 0, expiryDue := false }

/-- The executing burst ends: END, then CREDIT 1 while the port is ENABLED or SUSPENDED; the header leaves the SRQ, and
a DISABLING port enters DISABLED (R128, R132, R137, R141). -/
def State.endBurst (s : State) (p : SpId) (st : EndStatus) : State :=
  match (s.sp p).burst with
  | none => s
  | some b =>
    let sp := s.sp p
    let give := sp.state.credited
    s.setSp p
      { sp with
        outbound := sp.outbound ++ [.endMsg b.hdr.tag st b.done] ++ (if give then [.credit 1] else [])
        srq := sp.srq.tail
        burst := none
        credits := if give then sp.credits + 1 else sp.credits
        state := if sp.state = .disabling then .disabled else sp.state
        expiryDue := false }

/-- The port enters SUSPENDED with a cause; one already SUSPENDED takes the new cause; a DISABLING or DISABLED one
changes nothing (R135). -/
def State.suspend (s : State) (p : SpId) (c : SuspendCause) : State :=
  let sp := s.sp p
  if sp.state.credited then s.setSp p { sp with state := .suspended, cause := c } else s

end Sys2Proof.Machine
end

