-- ==== Sys2Proof/Machine/MergeBuffer.lean ====
section
/-! DEFINITION. The merge buffer's operations: a merge write's acceptance, hold, wait or refusal, what its port is told,
lookups and overlays, FLUSH, and the drain engine's selection (chapter 02). -/

namespace Sys2Proof.Machine

/-! ### Merge writes (R20 to R28) -/

/-- What becomes of a merge write at an offer: accepted, refused with ENTRY_FAULTED, or held or waiting (R20). -/
inductive MbAnswer where
  | accepted | refused | outstanding
  deriving DecidableEq, Repr

/-- The lanes of a merge write written into an entry; in WRITING the entry is reopened (R22, R23). -/
def Entry.coalesce (e : Entry) (m : MergeWrite) : Entry :=
  { e with
    data := overlayLanes e.data m.data m.mask
    mask := e.mask ||| m.mask
    reopened := e.reopened || e.state == .writing }

/-- A fresh PENDING entry for a merge write (R25). -/
def Entry.allocated (m : MergeWrite) : Entry :=
  { Entry.default with
    state := .pending, addr := m.addr, data := overlayLanes 0#32 m.data m.mask, mask := m.mask }

/-- The merge write is accepted into entry `e`; a READ that waits for the entry becomes a WRITE when the mask is now
full (R22, R36). -/
def State.mbCoalesce (s : State) (e : Fin 8) (m : MergeWrite) : State :=
  let x := (s.mb.entry e).coalesce m
  if s.mb.drain.phase = .readWait ∧ s.mb.drain.entry = some e ∧ x.mask = 15#4 then
    (s.setMb { s.mb.setEntry e x with drain := { s.mb.drain with phase := .writeWait } }).request .dr .write x.addr
  else s.setMb (s.mb.setEntry e x)

/-- Entry `e`, FREE, is allocated to the merge write and joins the age list as the youngest (R19, R25). -/
def State.mbAllocate (s : State) (e : Fin 8) (m : MergeWrite) : State :=
  s.setMb { s.mb.setEntry e (.allocated m) with age := s.mb.age ++ [e] }

/-- The merge write joins the tail of the waiting-writer list; MB_BLOCKED is raised while all eight entries are FAULTED
(R26, R28). -/
def State.mbWait (s : State) (m : MergeWrite) : State :=
  let t := s.setMb { s.mb with waiting := s.mb.waiting ++ [m] }
  if s.mb.count (fun e => e.state == .faulted) = 8 then t.setIrq { t.irq with mbBlocked := true } else t

/-- The merge write is held by a lock entry for its word (R21). -/
def State.mbHold (s : State) (m : MergeWrite) : State := s.setMb { s.mb with held := s.mb.held ++ [m] }

/-- A merge write arrives at the buffer (R20 to R26). -/
def State.mbOffer (s : State) (m : MergeWrite) : MbAnswer × State :=
  if s.locked m.addr then (.outstanding, s.mbHold m)
  else if m.mask = 0#4 then (.accepted, s)
  else
    match s.mb.entryFor m.addr with
    | some e =>
      if (s.mb.entry e).state = .faulted then (.refused, s) else (.accepted, s.mbCoalesce e m)
    | none =>
      match s.mb.firstFree with
      | some e => (.accepted, s.mbAllocate e m)
      | none => (.outstanding, s.mbWait m)

/-- A write beat's merge write has been accepted: the done count advances and the burst ends or awaits its next beat
(R148). -/
def State.beatAccepted (s : State) (p : SpId) : State :=
  match (s.sp p).burst with
  | none => s
  | some b =>
    let b' := { b with done := b.done + 1 }
    if b'.done = b.hdr.length then (s.setBurst p (some b')).endBurst p .ok else s.awaitBeat p b' .beatWait

/-- The stream port of a port. -/
def streamOf : Port → Option SpId
  | .pp => none
  | .sp0 => some .sp0
  | .sp1 => some .sp1

/-- The port is told how its merge write ended (R119, R148). -/
def State.mbTell (s : State) (q : Port) (a : MbAnswer) : State :=
  match a, streamOf q with
  | .outstanding, _ => s
  | .accepted, none => s.ppComplete .ok 0#32
  | .refused, none => s.ppComplete .entryFaulted 0#32
  | .accepted, some p => s.beatAccepted p
  | .refused, some p => s.endBurst p .entryFaulted

/-- A merge write is issued, or taken up again, and its port told of its end (R20). -/
def State.mergeIssue (s : State) (m : MergeWrite) : State :=
  let r := s.mbOffer m
  r.2.mbTell m.port r.1

/-- A port's held or waiting merge write is withdrawn (R27). -/
def State.mergeWithdraw (s : State) (q : Port) : State :=
  s.setMb
    { s.mb with
      waiting := s.mb.waiting.filter (·.port != q)
      held := s.mb.held.filter (·.port != q) }

/-! ### Lookup and overlay (R29 to R31) -/

/-- The entry's data when a non-FREE entry for the word covers every needed lane (R29). -/
def State.mbLookup (s : State) (w : Addr) (need : LaneMask) : Option Word :=
  match s.mb.entryFor w with
  | some e => if covers (s.mb.entry e).mask need then some (s.mb.entry e).data else none
  | none => none

/-- The data and the outcome the buffer delivers at an array read's completion (R30, R31). -/
def State.mbOverlay (s : State) (w : Addr) (need : LaneMask) (read : Word × DecodeOutcome) : Word × DecodeOutcome :=
  match s.mb.entryFor w with
  | some e =>
    (overlayLanes read.1 (s.mb.entry e).data ((s.mb.entry e).mask &&& need),
     if covers (s.mb.entry e).mask need then .clean else read.2)
  | none => read

/-! ### Leaving the buffer (R19, R39, R42) -/

/-- Entry `e` becomes FREE and leaves the age list (R19). -/
def MergeBuffer.release (mb : MergeBuffer) (e : Fin 8) : MergeBuffer :=
  { mb.setEntry e Entry.default with age := mb.age.filter (· != e) }

/-- The drain engine returns to IDLE (R32). -/
def MergeBuffer.drainIdle (mb : MergeBuffer) : MergeBuffer := { mb with drain := { phase := .idle, entry := none } }

/-! ### FLUSH (R45) -/

/-- An entry marked at the start of a FLUSH (R45). -/
def Entry.flushMark (e : Entry) : Entry :=
  if e.live then { e with flushBound := true, flushCarry := e.state == .writing && e.reopened } else e

/-- The buffer's part of a FLUSH's start: the marks and the faulted count (R45). -/
def MergeBuffer.flushStart (mb : MergeBuffer) : MergeBuffer :=
  { mb with
    entries := mb.entries.map Entry.flushMark
    faultedCount := mb.count fun e => e.state == .faulted }

/-! ### The drain engine's choice (R34, R35, R44) -/

/-- The condition for starting a drain, the engine being IDLE with no resolve-pending entry (R34). -/
def State.drainTrigger (s : State) : Bool :=
  s.ctl.state != .halted && s.mb.anyEntry (fun e => e.state == .pending) &&
  (s.cfg.lwm.toNat ≤ s.mb.count (fun e => e.state == .pending) || s.cfg.hwm.toNat ≤ s.mb.count Entry.live ||
   !s.mb.waiting.isEmpty || s.mb.anyEntry Entry.forced || s.mb.anyEntry Entry.flushBound || s.ctl.state == .quiescing)

/-- The entry a drain selects (R35). -/
def MergeBuffer.drainChoice (mb : MergeBuffer) : Option (Fin 8) :=
  (mb.oldest fun e => e.state == .pending && e.forced).or
    ((mb.oldest fun e => e.state == .pending && e.flushBound).or (mb.oldest fun e => e.state == .pending))

/-- The oldest resolve-pending entry (R44). -/
def MergeBuffer.resolveChoice (mb : MergeBuffer) : Option (Fin 8) :=
  mb.oldest fun e => e.state == .faulted && e.resolvePending

/-- A waiter that can be served now: its word is not locked, and an entry for its word or a FREE entry exists (R26). -/
def State.servable (s : State) (m : MergeWrite) : Bool :=
  !s.locked m.addr && ((s.mb.entryFor m.addr).isSome || s.mb.firstFree.isSome)

end Sys2Proof.Machine
end

