-- ==== Sys2Proof/Machine/Locks.lean ====
section
/-! DEFINITION. The word lock table and the atomic engine: creation, progress, delivery, removal and cancellation
(chapter 03). -/

namespace Sys2Proof.Machine

/-- The buffer's answers to the atomic engine (R40). -/
inductive MbWordAnswer where
  | none
  | faulted
  | forced (e : Fin 8)
  deriving DecidableEq, Repr

/-- What the buffer holds for a word (R40). -/
def State.mbAsk (s : State) (w : Addr) : MbWordAnswer :=
  match s.mb.entryFor w with
  | none => .none
  | some e => if (s.mb.entry e).state = .faulted then .faulted else .forced e

/-- The statuses of an atomic result (Table 3-2). -/
inductive LockStatus where
  | done | casFailed | uncorrectable | entryFaulted
  deriving DecidableEq, Repr

/-- An atomic result: status, old value and decode outcome; for ENTRY_FAULTED the last two are not used (R53). -/
structure LockResult where
  status  : LockStatus
  old     : Word
  outcome : DecodeOutcome
  deriving DecidableEq, Repr

/-- The result of an atomic that met a FAULTED entry (R58). -/
def LockResult.faulted : LockResult := { status := .entryFaulted, old := 0#32, outcome := .clean }

/-- The completion status of a processor atomic (R67). -/
def LockResult.cplStatus (r : LockResult) : CplStatus :=
  match r.status with
  | .done => r.outcome.cplStatus
  | .casFailed => .casFailed
  | .uncorrectable => .uncorrectable
  | .entryFaulted => .entryFaulted

/-- The END status of a stream atomic (R68). -/
def LockResult.endStatus (r : LockResult) : EndStatus :=
  match r.status with
  | .done => .ok
  | .casFailed => .casFailed
  | .uncorrectable => .uncorrectable
  | .entryFaulted => .entryFaulted

/-- A stream atomic is answered: READ_BEAT with the old value, then END with done count 1; an UNCORRECTABLE beat
suspends the port; ENTRY_FAULTED sends END alone with done count 0 (R68, R151). -/
def State.answerAtomic (s : State) (p : SpId) (tag : Tag) (r : LockResult) : State :=
  match (s.sp p).burst with
  | none => s
  | some b =>
    if r.status = .entryFaulted then s.endBurst p .entryFaulted
    else
      let t := (s.send p [.readBeat tag r.old r.outcome.beatStatus]).setBurst p (some { b with done := 1 })
      let t := if r.outcome = .uncorrectable then t.suspend p .uncorrectable else t
      t.endBurst p r.endStatus

/-- The result is handed to the entry's port; a cancelled entry hands over none (R53, R67, R68, R70). -/
def State.deliver (s : State) (e : LockEntry) (r : LockResult) : State :=
  if e.cancelled then s
  else
    match streamOf e.port with
    | none => s.ppComplete r.cplStatus r.old
    | some p => s.answerAtomic p e.tag r

/-- The entry of a port leaves the table; younger ones move up (R55). -/
def State.eraseLock (s : State) (q : Port) : State := s.setWlt (s.wlt.filter (·.port != q))

/-- The entry of a port enters a state. -/
def State.setLockState (s : State) (q : Port) (st : LockState) : State :=
  s.setWlt (s.wlt.map fun e => if e.port = q then { e with state := st } else e)

/-- The request is an atomic for the word. -/
def PpRequest.atomicOn (r : PpRequest) (w : Addr) : Bool :=
  match r.op with
  | .atomic _ => wordOf r.addr == w
  | .read | .write | .flush => false

/-- No entry for the word is left: the hold of a processor atomic on it has ended, and it will create its entry even
behind one created meanwhile (R64). -/
def State.releaseHeldAtomic (s : State) (w : Addr) : State :=
  match s.ppt.exec with
  | none => s
  | some x => if x.phase = .lockHold ∧ x.req.atomicOn w then s.setPpPhase .lockReleased else s

/-- The entry first for the word, when it has just become so, asks the buffer and acts on the answer; one answered
FAULTED is removed and the next one asks in its turn (R58, R63). -/
def State.lockNext (fuel : Nat) (w : Addr) (s : State) : State :=
  match fuel with
  | 0 => s
  | n + 1 =>
    match s.firstLock w with
    | none => s.releaseHeldAtomic w
    | some e =>
      if e.state ≠ .waitTurn then s
      else
        match s.mbAsk w with
        | .none => s.setLockState e.port .waitGrant
        | .forced i =>
          (s.setMb (s.mb.setEntry i { s.mb.entry i with forced := true })).setLockState e.port .waitDrain
        | .faulted => State.lockNext n w ((s.eraseLock e.port).deliver e .faulted)

/-- The atomic engine requests a PAIRED access while an entry is in WAIT_GRANT and none of its own is waiting or in
flight, and withdraws its request when none is left (R60). -/
def State.aeUpdate (s : State) : State :=
  if s.wlt.any (·.state == .waitGrant) then
    if s.arb.slots.ae.isNone && !(s.aif.access.any (·.requester == .ae)) then
      s.setSlot .ae (some { kind := .paired, addr := none })
    else s
  else if s.arb.slots.ae.isSome then s.setSlot .ae none
  else s

/-- The table creates an entry, the youngest, unless it holds one of the port (R54, R56, R57, R58). -/
def State.createLock (s : State) (e : LockEntry) : State :=
  if s.hasLock e.port then s
  else (State.lockNext (s.wlt.length + 2) e.addr (s.setWlt (s.wlt ++ [e]))).aeUpdate

/-- An entry is removed, its result if any handed over, and the next one for its word acts (R63). -/
def State.removeLock (s : State) (e : LockEntry) (r : Option LockResult) : State :=
  let t := s.eraseLock e.port
  let t := match r with
    | none => t
    | some r => t.deliver e r
  (State.lockNext (t.wlt.length + 1) e.addr t).aeUpdate

/-- PORT_RESET, or an ABORT of the executing atomic: the port's entry is removed without a result, or cancelled when it
is IN_ARRAY (R69, R70). -/
def State.cancelLock (s : State) (q : Port) : State :=
  match s.wlt.find? (·.port == q) with
  | none => s
  | some e =>
    if e.state = .inArray then
      s.setWlt (s.wlt.map fun x => if x.port = q then { x with cancelled := true } else x)
    else s.removeLock e none

end Sys2Proof.Machine
end

