-- ==== Sys2Proof/Machine/Processor.lean ====
section
/-! DEFINITION. The access check unit's verdicts (chapter 05) and the processor port: the staged request, its dispatch
and the steps of its execution (chapter 06). -/

namespace Sys2Proof.Machine

/-! ### Verdicts (R86 to R93) -/

/-- The verdict of a request's check: PASS, or a fault kind with the word its record names (R87, R100). -/
inductive Verdict where
  | pass
  | fault (k : RecordKind) (a : Addr)
  deriving DecidableEq, Repr

/-- The descriptor is enabled and its range contains the block (R91). -/
def Region.contains (d : Region) (b : BitVec 14) : Bool := d.enabled && d.first ≤ b && b ≤ d.last

/-- The governing descriptor of a word (R91). -/
def State.governing (s : State) (w : Addr) : Option Region :=
  s.acu.regions.toList.find? fun d => d.contains (blockOf w)

/-- The region check grants the word to the port for the kind of access (R92). -/
def State.regionGrants (s : State) (q : Port) (k : AccessType) (w : Addr) : Bool :=
  match s.governing w with
  | none => false
  | some d => (d.rightsOf q).grants k

/-- The alignment check (R88). -/
def PpRequest.aligned (r : PpRequest) : Bool :=
  match r.size with
  | .byte => true
  | .half => r.addr.toNat % 2 == 0
  | .word | .noSize => r.addr.toNat % 4 == 0

/-- The verdict of a processor request (R86 to R92). -/
def State.ppVerdict (s : State) (r : PpRequest) : Verdict :=
  match r.op with
  | .flush => .pass
  | .read | .write | .atomic _ =>
    let w := wordOf r.addr
    if !r.aligned then .fault .alignFault w
    else if s.cfg.size ≤ w.toNat then .fault .addressFault w
    else if s.cfg.protect && !s.regionGrants .pp r.op.access w then .fault .regionFault w
    else .pass

/-- The words of a header (R3). -/
def Header.words (h : Header) : List Addr := (List.range h.length).map fun i => h.addr + BitVec.ofNat 20 i

/-- The verdict of a stream header: its last word is computed in full (R89), and a refused word refuses the whole
(R93). -/
def State.streamVerdict (s : State) (p : SpId) (h : Header) : Verdict :=
  if s.cfg.size < h.addr.toNat + h.length then .fault .addressFault h.addr
  else if s.cfg.protect then
    match h.words.find? fun w => !s.regionGrants p.port h.op.access w with
    | some w => .fault .regionFault w
    | none => .pass
  else .pass

/-- The record of a fault verdict (R100). -/
def State.logFault (s : State) (k : RecordKind) (q : Port) (a : Addr) (access : AccessType) (tag : Tag) : State :=
  s.logRecord { ErrorRecord.base k (portSource q) a with access := some access, tag := some tag }

/-- The completion status of a fault verdict (R99). -/
def faultCplStatus : RecordKind → CplStatus
  | .alignFault => .alignFault
  | .addressFault => .addressFault
  | .regionFault | .corrected | .uncorrectable | .mergeFault | .protocol => .regionFault

/-- The END status of a fault verdict (R99). -/
def faultEndStatus : RecordKind → EndStatus
  | .addressFault => .addressFault
  | .alignFault | .regionFault | .corrected | .uncorrectable | .mergeFault | .protocol => .regionFault

/-! ### The staged request (R112 to R114) -/

/-- The operation the staging registers name, if any (R112). -/
def Ppt.stagedOp (x : Ppt) : Option ReqOp := reqOpOfCode (x.reqOp.extractLsb' 0 4).toNat

/-- The size the staging registers name. -/
def Ppt.stagedSize (x : Ppt) : Size := sizeOfCode (x.reqOp.extractLsb' 4 2)

/-- The request the staging registers name, when it is valid (R113). -/
def Ppt.staged (x : Ppt) : Option PpRequest :=
  match x.stagedOp with
  | none => none
  | some op =>
    let r : PpRequest :=
      { op := op, size := x.stagedSize, tag := x.reqOp.extractLsb' 8 4, addr := x.reqAddr, opA := x.reqOpA,
        opB := x.reqOpB }
    match op with
    | .flush => some r
    | .read | .write => if x.stagedSize = .noSize then none else some r
    | .atomic _ => if x.stagedSize = .word then some r else none

/-! ### Execution (R116 to R121) -/

/-- The lanes a request needs. -/
def PpRequest.lanes (r : PpRequest) : LaneMask := laneMaskOf r.size r.addr

/-- A READ past its holds: served by the buffer, or an array READ as requester PP (R117). -/
def State.ppLookup (s : State) (r : PpRequest) : State :=
  match s.mbLookup (wordOf r.addr) r.lanes with
  | some d => s.ppComplete .ok (readResult r.size r.addr d)
  | none => (s.setPpPhase .readWait).request .pp .read (wordOf r.addr)

/-- The lock entry of a processor atomic (R56). -/
def PpRequest.lockEntry (r : PpRequest) (op : AtomicOp) : LockEntry :=
  { port := .pp, tag := r.tag, addr := wordOf r.addr, op := op, opA := r.opA
    opB := if op = .compareSwap then some r.opB else none
    state := .waitTurn, cancelled := false }

/-- The merge write of a WRITE (R119). -/
def PpRequest.mergeWrite (r : PpRequest) : MergeWrite :=
  { port := .pp, addr := wordOf r.addr, data := writeLanes r.size r.addr r.opA, mask := r.lanes }

/-- Steps 3 and 4: the lock hold and the execution by kind (R116). -/
def State.ppLockStep (s : State) (r : PpRequest) : State :=
  match r.op with
  | .read => if s.locked (wordOf r.addr) then s.setPpPhase .lockHold else s.ppLookup r
  | .write => (s.setPpPhase .merge).mergeIssue r.mergeWrite
  | .atomic op =>
    if s.locked (wordOf r.addr) || s.hasLock .pp then s.setPpPhase .lockHold
    else (s.setPpPhase .locked).createLock (r.lockEntry op)
  | .flush => s

/-- Step 2: the fill fence (R116, R168). -/
def State.ppFenceStep (s : State) (r : PpRequest) : State :=
  if s.fenced (wordOf r.addr) then s.setPpPhase .fenceHold else s.ppLockStep r

/-- A request becomes the executing one and begins: its check, then the steps of its kind (R115, R116, R121). -/
def State.ppStart (s : State) (r : PpRequest) : State :=
  match s.ppVerdict r with
  | .fault k a => (s.logFault k .pp a r.op.access r.tag).ppComplete (faultCplStatus k) 0#32
  | .pass =>
    match r.op with
    | .flush => (s.setMb s.mb.flushStart).setPpPhase .flushing
    | .read | .write | .atomic _ => s.ppFenceStep r

/-- The dispatch conditions of the processor port (R115). -/
def State.prqReady (s : State) : Bool :=
  s.ctl.state == .running && s.ppt.exec.isNone && s.ppt.cq.length < 8 && !s.ppt.prq.isEmpty

/-- PRQ_DISPATCH: the head of the PRQ is dispatched (R115). -/
def State.prqDispatch (s : State) : State :=
  match s.ppt.prq with
  | [] => s
  | r :: rest =>
    (s.setPpt { s.ppt with prq := rest, exec := some { req := r, phase := .fenceHold } }).ppStart r

/-- The executing request is held at the fence and its word is no longer fenced (R168). -/
def State.ppFenceReleasable (s : State) : Bool :=
  match s.ppt.exec with
  | some x => x.phase == .fenceHold && !s.fenced (wordOf x.req.addr)
  | none => false

/-- A processor request released from the fence proceeds (R116, R168). -/
def State.ppFenceRelease (s : State) : State :=
  match s.ppt.exec with
  | some x => s.ppLockStep x.req
  | none => s

/-- The executing READ or atomic has been released from its lock hold (R64); an atomic stays held while the table holds
an entry of port PP (R56). -/
def State.ppLockReleasable (s : State) : Bool :=
  match s.ppt.exec with
  | some x =>
    (x.phase == .lockReleased || (x.phase == .lockHold && !s.locked (wordOf x.req.addr))) &&
    !(x.req.atomicOn (wordOf x.req.addr) && s.hasLock .pp)
  | none => false

/-- A processor READ or atomic released from its lock hold proceeds; an atomic creates its entry, behind one that was
created meanwhile if there is one (R64). -/
def State.ppLockRelease (s : State) : State :=
  match s.ppt.exec with
  | none => s
  | some x =>
    match x.req.op with
    | .atomic op => (s.setPpPhase .locked).createLock (x.req.lockEntry op)
    | .read | .write | .flush => s.ppLockStep x.req

/-- FLUSH_COMPLETION is due: a FLUSH is in progress and no entry is flush-bound (R46). -/
def State.flushReady (s : State) : Bool :=
  (match s.ppt.exec with
   | some x => x.phase == .flushing
   | none => false) && !s.mb.anyEntry Entry.flushBound

/-- FLUSH_COMPLETION: OK, or FLUSH_FAULTED with the count as data; the count returns to 0 (R46). -/
def State.flushComplete (s : State) : State :=
  let n := s.mb.faultedCount
  (s.setMb { s.mb with faultedCount := 0 }).ppComplete (if n = 0 then .ok else .flushFaulted) (BitVec.ofNat 32 n)

end Sys2Proof.Machine
end

