-- ==== Sys2Proof/Machine/Streams.lean ====
section
/-! DEFINITION. The stream ports: dispatch, read words, beats, atomics, arriving frames, aborts and resets
(chapter 07). -/

namespace Sys2Proof.Machine

/-! ### Read bursts (R143 to R145) -/

/-- The burst stands in a phase under a hold. -/
def State.holdBurst (s : State) (p : SpId) (b : Burst) (ph : BurstPhase) (h : HoldAt) : State :=
  s.setBurst p (some { b with phase := ph, hold := h })

/-- The burst's current word goes to the array: READ_WAIT, with the request made now, or at the completion of a discarded
read (R143, R133, log 13). -/
def State.readRequest (s : State) (p : SpId) (b : Burst) : State :=
  let t := s.holdBurst p b .readWait .none
  if (s.sp p).discardedRead.isNone then t.request (portRequester p.port) .read b.word else t

/-- The read burst takes up its current word and the words after it that the buffer covers, at one event (R143). -/
def State.readWords (fuel : Nat) (p : SpId) (s : State) : State :=
  match fuel with
  | 0 => s
  | n + 1 =>
    match (s.sp p).burst with
    | none => s
    | some b =>
      if s.fenced b.word then s.holdBurst p b .readHold .fence
      else if s.locked b.word then s.holdBurst p b .readHold .lock
      else
        match s.mbLookup b.word 15#4 with
        | none => s.readRequest p b
        | some d =>
          let b' := { b with done := b.done + 1 }
          let t := (s.send p [.readBeat b.hdr.tag d .clean]).setBurst p (some b')
          if b'.done = b.hdr.length then t.endBurst p .ok else State.readWords n p t

/-- The read burst goes on with its current word; a burst has at most 16 words. -/
def State.readOn (s : State) (p : SpId) : State := State.readWords 16 p s

/-- A read word of the executing burst has been delivered from the array: its READ_BEAT is sent and the burst ends or
goes on (R143 to R145, R154). -/
def State.readDelivered (s : State) (p : SpId) (d : Word) (o : DecodeOutcome) : State :=
  match (s.sp p).burst with
  | none => s
  | some b =>
    let b' := { b with done := b.done + 1 }
    let t := (s.send p [.readBeat b.hdr.tag d o.beatStatus]).setBurst p (some b')
    if o = .uncorrectable then
      (t.suspend p .uncorrectable).endBurst p (if b.aborted then .aborted else .uncorrectable)
    else if b.aborted then t.endBurst p .aborted
    else if b'.done = b.hdr.length then t.endBurst p .ok
    else t.readOn p

/-! ### Write beats (R146 to R148) -/

/-- The merge write of a beat of the burst's current word (R147). -/
def Burst.mergeWrite (b : Burst) (p : SpId) (d : Word) (m : LaneMask) : MergeWrite :=
  { port := p.port, addr := b.word, data := d, mask := m }

/-- A write beat is taken: held at the fence, or issued as a merge write (R147, R168). -/
def State.takeWriteBeat (s : State) (p : SpId) (b : Burst) (d : Word) (m : LaneMask) : State :=
  if s.fenced b.word then
    s.setBurst p (some { b with phase := .merge, hold := .fence, beat := some (d, m) })
  else
    (s.setBurst p (some { b with phase := .merge, hold := .none, beat := none })).mergeIssue (b.mergeWrite p d m)

/-- A beat held at the fence is issued (R147, R168). -/
def State.issueHeldBeat (s : State) (p : SpId) : State :=
  match (s.sp p).burst with
  | none => s
  | some b =>
    match b.beat with
    | none => s
    | some (d, m) =>
      (s.setBurst p (some { b with hold := .none, beat := none })).mergeIssue (b.mergeWrite p d m)

/-! ### Stream atomics (R150) -/

/-- The first frame on the link is a matching beat that the port may not take: an atomic's last operand behind the port's
own lock entry (OPERAND_BLOCKED, R150). -/
def State.blockOperand (s : State) (p : SpId) : State :=
  match (s.sp p).inbound, (s.sp p).burst with
  | f :: _, some b =>
    if b.phase = .operandWait ∧ s.canTake p f = false then s.setBurst p (some { b with phase := .operandBlocked })
    else s
  | _, _ => s

/-- The atomic is held at its dispatch, or admitted: DATA_REQUEST is sent and its operands are awaited (R150). -/
def State.admitAtomic (s : State) (p : SpId) : State :=
  match (s.sp p).burst with
  | none => s
  | some b =>
    if s.fenced b.hdr.addr then s.holdBurst p b .admitHold .fence
    else if s.locked b.hdr.addr then s.holdBurst p b .admitHold .lock
    else ((s.send p [.dataRequest b.hdr.tag]).awaitBeat p b .operandWait).blockOperand p

/-- The lock entry of a stream atomic: operand A is the first beat and operand B the second (R57). -/
def Burst.lockEntry (b : Burst) (p : SpId) (op : AtomicOp) (d : Word) : LockEntry :=
  { port := p.port, tag := b.hdr.tag, addr := b.hdr.addr, op := op, opA := b.opA.getD d
    opB := if op = .compareSwap then some d else none
    state := .waitTurn, cancelled := false }

/-- An operand beat is taken: a COMPARE_SWAP's first is kept; the last creates the lock entry (R57, R150). -/
def State.takeOperand (s : State) (p : SpId) (b : Burst) (d : Word) : State :=
  match b.hdr.op with
  | .atomic op =>
    if b.lastOperand then (s.holdBurst p b .locked .none).createLock (b.lockEntry p op d)
    else s.awaitBeat p { b with opA := some d } .operandWait
  | .read | .write => s

/-! ### Dispatch (R142) -/

/-- The dispatch conditions of a stream port (R142). -/
def State.srqReady (s : State) (p : SpId) : Bool :=
  s.ctl.state == .running && (s.sp p).state == .enabled && (s.sp p).burst.isNone && !(s.sp p).srq.isEmpty

/-- A header that has just become the executing burst. -/
def Header.start (h : Header) : Burst :=
  { hdr := h, done := 0, phase := .readHold, hold := .none, opA := none, beat := none, aborted := false }

/-- SRQ_DISPATCH: the head of the SRQ becomes the executing burst and is checked; a fault ends it, a PASS begins it
(R142, R143, R146, R150). -/
def State.srqDispatch (s : State) (p : SpId) : State :=
  match (s.sp p).srq with
  | [] => s
  | h :: _ =>
    let t := s.setBurst p (some h.start)
    match s.streamVerdict p h with
    | .fault k a =>
      let t := (t.endBurst p (faultEndStatus k)).logFault k p.port a h.op.access h.tag
      if (t.sp p).suspendOnFault then t.suspend p .fault else t
    | .pass =>
      match h.op with
      | .read => t.readOn p
      | .write => (t.send p [.dataRequest h.tag]).awaitBeat p h.start .beatWait
      | .atomic _ => t.admitAtomic p

/-! ### Arriving frames (R125, R127, R138 to R140, R195) -/

/-- The access field of a refused header's record (R140): READ for code 7. -/
def refusedAccess (code : Nat) : AccessType :=
  match streamOpOfCode code with
  | some op => op.access
  | none => .read

/-- The port sends END PROTOCOL for a refused header, with CREDIT 1 but for cause CREDIT, records it and is SUSPENDED
(R140). -/
def State.refuseHeader (s : State) (p : SpId) (f : Frame) (c : ProtocolCause) : State :=
  let t := s.send p ([.endMsg (headerTag f) .protocol 0] ++ (if c = .credit then [] else [.credit 1]))
  let t := t.logRecord
    { ErrorRecord.base .protocol (portSource p.port) (headerAddr f) with
      access := some (refusedAccess (headerOpCode f)), tag := some (headerTag f), cause := some c }
  t.suspend p .protocol

/-- The first arrival test that a header fails, in the order of R138, given the credit count it meets. -/
def headerFault (credits : Nat) (f : Frame) : Option ProtocolCause :=
  if credits = 0 then some .credit
  else if !headerParityOdd f then some .parity
  else
    match streamOpOfCode (headerOpCode f) with
    | none => some .opcode
    | some (.atomic _) => if headerLength f ≠ 1 then some .length else none
    | some .read | some .write => none

/-- The header a frame names when its operation is one (R126). -/
def headerOf (f : Frame) : Header :=
  { op := (streamOpOfCode (headerOpCode f)).getD .read
    length := headerLength f, tag := headerTag f, addr := headerAddr f }

/-- A HEADER is taken (R137 to R140). -/
def State.takeHeader (s : State) (p : SpId) (f : Frame) : State :=
  let sp := s.sp p
  if sp.state.credited then
    match headerFault sp.credits f with
    | some c => s.refuseHeader p f c
    | none => s.setSp p { sp with credits := sp.credits - 1, srq := sp.srq ++ [headerOf f] }
  else s.send p [.endMsg (headerTag f) .aborted 0]

/-- A WRITE_BEAT is taken: the awaiting burst's next beat, or discarded (R127). -/
def State.takeBeat (s : State) (p : SpId) (f : Frame) : State :=
  match (s.sp p).burst with
  | none => s
  | some b =>
    if s.matchingBeat p f then
      match b.phase with
      | .beatWait => s.takeWriteBeat p b (beatData f) (beatMask f)
      | .operandWait | .operandBlocked => s.takeOperand p b (beatData f)
      | .merge | .readHold | .readWait | .readAccess | .admitHold | .locked => s
    else s

/-- An ABORT that matches no executing burst removes the oldest queued header with its tag (R155). -/
def State.abortQueued (s : State) (p : SpId) (t : Tag) : State :=
  let sp := s.sp p
  let executing := if sp.burst.isSome then sp.srq.take 1 else []
  let queued := if sp.burst.isSome then sp.srq.drop 1 else sp.srq
  match queued.find? (·.tag == t) with
  | none => s
  | some _ =>
    s.setSp p
      { sp with
        srq := executing ++ queued.eraseP (·.tag == t)
        credits := if sp.state.credited then sp.credits + 1 else sp.credits
        outbound := sp.outbound ++ [.endMsg t .aborted 0] ++ (if sp.state.credited then [.credit 1] else []) }

/-- An ABORT that matches the executing burst acts by its phase (R154). -/
def State.abortBurst (s : State) (p : SpId) (b : Burst) : State :=
  match b.phase with
  | .readWait | .readAccess => s.setBurst p (some { b with aborted := true })
  | .merge => (s.mergeWithdraw p.port).endBurst p .aborted
  | .locked => (s.endBurst p .aborted).cancelLock p.port
  | .readHold | .beatWait | .admitHold | .operandWait | .operandBlocked => s.endBurst p .aborted

/-- An ABORT is taken (R154, R155). -/
def State.takeAbort (s : State) (p : SpId) (t : Tag) : State :=
  match (s.sp p).burst with
  | some b => if b.hdr.tag = t then s.abortBurst p b else s.abortQueued p t
  | none => s.abortQueued p t

/-- The port takes a frame, by its type; types 0 and 4 to 15 are discarded (R195). -/
def State.takeFrame (s : State) (p : SpId) (f : Frame) : State :=
  if frameType f = 1#4 then s.takeHeader p f
  else if frameType f = 2#4 then s.takeBeat p f
  else if frameType f = 3#4 then s.takeAbort p (beatTag f)
  else s

/-- A frame arrives: behind a waiting beat it waits; a matching beat the port is not ready for waits; any other is taken
(R125). -/
def State.arrive (s : State) (p : SpId) (f : Frame) : State :=
  if (s.sp p).inbound = [] ∧ s.canTake p f then s.takeFrame p f
  else (s.setSp p { s.sp p with inbound := (s.sp p).inbound ++ [f] }).blockOperand p

/-- The first frame that waits on the link can be taken. -/
def State.linkReady (s : State) (p : SpId) : Bool :=
  match (s.sp p).inbound with
  | [] => false
  | f :: _ => s.canTake p f

/-- The first frame that waits on the link is taken (R125). -/
def State.linkTake (s : State) (p : SpId) : State :=
  match (s.sp p).inbound with
  | [] => s
  | f :: rest => ((s.setSp p { s.sp p with inbound := rest }).takeFrame p f).blockOperand p

/-! ### Holds (R64, R168) -/

/-- The burst is held at the fence for a word that is no longer fenced (R168). -/
def State.spFenceReleasable (s : State) (p : SpId) : Bool :=
  match (s.sp p).burst with
  | some b => b.hold == .fence && !s.fenced b.word
  | none => false

/-- A burst released from its hold proceeds: a read word or an admission is taken up again, a held beat is issued (R64,
R143, R147, R150). -/
def State.spRelease (s : State) (p : SpId) : State :=
  match (s.sp p).burst with
  | none => s
  | some b =>
    match b.phase with
    | .readHold => s.readOn p
    | .admitHold => s.admitAtomic p
    | .merge => s.issueHeldBeat p
    | .readWait | .readAccess | .beatWait | .operandWait | .operandBlocked | .locked => s

/-- The burst is held by a lock entry for a word that has none any more (R64). -/
def State.spLockReleasable (s : State) (p : SpId) : Bool :=
  match (s.sp p).burst with
  | some b => b.hold == .lock && !s.locked b.word
  | none => false

/-! ### Timers and port commands (R131 to R134, R153) -/

/-- BEAT_TIMER_EXPIRY is due: the timer reached its timeout at the latest tick and the burst still waits (R152). -/
def State.expiryReady (s : State) (p : SpId) : Bool :=
  (s.sp p).expiryDue &&
  (match (s.sp p).burst with
   | some b => b.phase == .beatWait || b.phase == .operandWait
   | none => false)

/-- BEAT_TIMER_EXPIRY: END PROTOCOL, the TIMEOUT record for the current word, SUSPENDED with cause TIMEOUT (R153). -/
def State.beatExpiry (s : State) (p : SpId) : State :=
  match (s.sp p).burst with
  | none => s
  | some b =>
    let t := s.endBurst p .protocol
    let t := t.logRecord
      { ErrorRecord.base .protocol (portSource p.port) b.word with
        access := some b.hdr.op.access, tag := some b.hdr.tag, cause := some .timeout }
    t.suspend p .timeout

/-- The queued headers answered END ABORTED, in order (R132, R133). -/
def abortedEnds (hs : List Header) : List LinkMsg := hs.map fun h => .endMsg h.tag .aborted 0

/-- PORT_RESET ends the executing burst with END ABORTED, no CREDIT following, and deals with what it set in motion,
by phase (R133). -/
def State.resetBurst (s : State) (p : SpId) : State :=
  match (s.sp p).burst with
  | none => s
  | some b =>
    let sp := s.sp p
    let t := s.setSp p
      { sp with
        outbound := sp.outbound ++ [.endMsg b.hdr.tag .aborted b.done]
        srq := sp.srq.tail
        burst := none
        discardedRead := if b.phase = .readAccess then some b.hdr.tag else sp.discardedRead }
    match b.phase with
    | .readWait => t.setSlot (portRequester p.port) none
    | .merge => t.mergeWithdraw p.port
    | .locked => t.cancelLock p.port
    | .readHold | .readAccess | .beatWait | .admitHold | .operandWait | .operandBlocked => t

/-- PORT_RESET (R133): the executing burst, then the queued headers, then CLOSE; the port returns to DISABLED. A beat
waiting on the link is taken and discarded (log 17). -/
def State.portReset (s : State) (p : SpId) : State :=
  let waiting := s.beatOnLink p
  let t := s.resetBurst p
  let sp := t.sp p
  t.setSp p
    { sp with
      state := .disabled
      srq := []
      credits := 0
      cause := .none
      timer := 0
      inbound := if waiting then sp.inbound.tail else sp.inbound
      outbound := sp.outbound ++ abortedEnds sp.srq ++ [.close]
      expiryDue := false }

/-- PORT_DISABLE (R132): the queued headers are answered, CLOSE is sent, the credits fall to 0. -/
def State.portDisable (s : State) (p : SpId) : State :=
  let sp := s.sp p
  let queued := if sp.burst.isSome then sp.srq.drop 1 else sp.srq
  s.setSp p
    { sp with
      state := if sp.burst.isSome then .disabling else .disabled
      srq := if sp.burst.isSome then sp.srq.take 1 else []
      credits := 0
      outbound := sp.outbound ++ abortedEnds queued ++ [.close] }

end Sys2Proof.Machine
end

