-- ==== Sys2Proof/Machine/Events.lean ====
section
/-! DEFINITION. The part's own events: which of them are due in a state, what each does, and how they are taken before
the next event from outside (logs 1, 2, 3). -/

namespace Sys2Proof.Machine

/-- The events the part itself brings about. All but `linkTake`, which belongs to the row of the frame that waited, are
rows of the opcode table. -/
inductive Due where
  | prqDispatch
  | srqDispatch (p : SpId)
  /-- A frame that waited behind a beat on the link, or that beat, can now be taken (R125). -/
  | linkTake (p : SpId)
  | lockRelease (q : Port)
  | fenceRelease (q : Port)
  | waiterAlloc
  | forcedSignal
  | flushDone
  | drainStart
  | resolveRequest
  | beatExpiry (p : SpId)
  | intervalExpiry
  | grant
  | quiesce
  deriving DecidableEq, Repr

/-! ### Hold releases (R64, R168) -/

/-- The port's merge write held at the buffer, when its word has no lock entry any more (R21, R64). -/
def State.releasableMerge (s : State) (q : Port) : Option MergeWrite :=
  (s.mb.held.find? (·.port == q)).filter fun m => !s.locked m.addr

/-- A held request of the port is released from a lock hold (R64). -/
def State.lockReleasable (s : State) (q : Port) : Bool :=
  (s.releasableMerge q).isSome ||
  (match streamOf q with
   | none => s.ppLockReleasable
   | some p => s.spLockReleasable p)

/-- LOCK_HOLD_RELEASE: a held merge write is taken up as if it had just arrived (R21); a held request proceeds at its
source (R64). -/
def State.lockRelease (s : State) (q : Port) : State :=
  match s.releasableMerge q with
  | some m => (s.setMb { s.mb with held := s.mb.held.filter (·.port != q) }).mergeIssue m
  | none =>
    match streamOf q with
    | none => s.ppLockRelease
    | some p => s.spRelease p

/-- A held request of the port is released from the fence (R168). -/
def State.fenceReleasable (s : State) (q : Port) : Bool :=
  match streamOf q with
  | none => s.ppFenceReleasable
  | some p => s.spFenceReleasable p

/-- FENCE_HOLD_RELEASE (R168). -/
def State.fenceRelease (s : State) (q : Port) : State :=
  match streamOf q with
  | none => s.ppFenceRelease
  | some p => s.spRelease p

/-! ### Waiting writers (R26) -/

/-- The first waiter that can be served (R26). -/
def State.nextWaiter (s : State) : Option MergeWrite := s.mb.waiting.find? s.servable

/-- WAITING_WRITER_ALLOCATION: the waiter leaves the list and is treated as an arrival (R26). -/
def State.allocateWaiter (s : State) : State :=
  match s.nextWaiter with
  | none => s
  | some m => (s.setMb { s.mb with waiting := s.mb.waiting.filter (·.port != m.port) }).mergeIssue m

/-! ### Forced drains (R40, R59) -/

/-- The oldest lock entry in WAIT_DRAIN whose forced entry has become FREE or FAULTED (R40). -/
def State.signalled (s : State) : Option LockEntry :=
  s.wlt.find? fun e =>
    e.state == .waitDrain &&
    (match s.mbAsk e.addr with
     | .none | .faulted => true
     | .forced _ => false)

/-- FORCED_DRAIN_SIGNAL: the lock entry enters WAIT_GRANT, or is removed with ENTRY_FAULTED (R59). -/
def State.forcedSignal (s : State) : State :=
  match s.signalled with
  | none => s
  | some e =>
    match s.mbAsk e.addr with
    | .faulted => s.removeLock e (some .faulted)
    | .none | .forced _ => (s.setLockState e.port .waitGrant).aeUpdate

/-! ### The drain engine (R34, R35, R44) -/

/-- A drain starts: the engine is IDLE, nothing is resolve-pending, and the trigger stands (R34). -/
def State.drainReady (s : State) : Bool :=
  s.mb.drain.phase == .idle && s.mb.resolveChoice.isNone && s.drainTrigger

/-- DRAIN_START: the chosen entry is selected and a READ or a WRITE of its word requested (R35). -/
def State.drainStart (s : State) : State :=
  match s.mb.drainChoice with
  | none => s
  | some e =>
    let x := { s.mb.entry e with selected := true }
    if x.mask = 15#4 then
      (s.setMb { s.mb.setEntry e x with drain := { phase := .writeWait, entry := some e } }).request .dr .write x.addr
    else
      (s.setMb { s.mb.setEntry e x with drain := { phase := .readWait, entry := some e } }).request .dr .read x.addr

/-- The engine, IDLE, has a resolve-pending entry to serve (R44). -/
def State.resolveReady (s : State) : Bool := s.mb.drain.phase == .idle && s.mb.resolveChoice.isSome

/-- RESOLVE_WRITE_REQUEST: a WRITE of the oldest resolve-pending entry's word is requested (R44). -/
def State.resolveRequest (s : State) : State :=
  match s.mb.resolveChoice with
  | none => s
  | some e =>
    (s.setMb { s.mb with drain := { phase := .resolveWait, entry := some e } }).request .dr .write (s.mb.entry e).addr

/-! ### The patrol interval (R160) -/

/-- INTERVAL_EXPIRY is due: the interval was reached at the latest tick, in PATROL_WAIT. -/
def State.intervalReady (s : State) : Bool := s.sce.intervalDue && s.sce.state == .patrolWait

/-- INTERVAL_EXPIRY: a PAIRED access of the patrol pointer's word is requested (R160). -/
def State.intervalExpiry (s : State) : State :=
  (s.setSce { s.sce with state := .patrolRequest, intervalDue := false }).request .sc .paired s.sce.patrolPtr

/-! ### Quiesce (R105) -/

/-- The end of quiesce is due. -/
def State.quiesceReady (s : State) : Bool := s.ctl.state == .quiescing && s.quiesced

/-- QUIESCE_COMPLETE: the controller enters HALTED and HALT_DONE is raised (R105). -/
def State.quiesceComplete (s : State) : State :=
  (s.setCtl { s.ctl with state := .halted }).setIrq { s.irq with haltDone := true }

/-! ### The grant (R36, R44, R60, R76 to R83) -/

/-- The arbiter can make a grant (R76). -/
def State.grantReady (s : State) : Bool := s.aif.state == .idle && s.winner.isSome

/-- The bypass count after a grant: no change while SC has no request waiting, 0 when SC wins, one more, up to 16, when
another does (R80). Whether a request of SC that arrives together with the winner's at an IDLE interface is waiting at
this grant is the model's choice (log 29). -/
def Arbiter.bypassAfter (a : Arbiter) (r : Requester) : Nat :=
  if a.slots.sc.isNone then a.bypass else if r = .sc then 0 else min (a.bypass + 1) 16

/-- The arbiter's part of a grant: the slot empties, the count and, at tier 3, the pointer move (R78, R80, R81). -/
def State.arbGrant (s : State) (r : Requester) (tier3 : Bool) : State :=
  s.setArb
    { slots := s.arb.slots.put r none
      pointer := if tier3 then ringNext s.sce.state.fillMode r else s.arb.pointer
      bypass := s.arb.bypassAfter r }

/-- The burst of a port whose read is granted enters READ_ACCESS (R143). -/
def State.burstGranted (s : State) (p : SpId) : State :=
  match (s.sp p).burst with
  | none => s
  | some b => s.setBurst p (some { b with phase := .readAccess })

/-- A port's READ is granted (R81). -/
def State.grantPort (s : State) (q : Port) (req : Request) : State :=
  let t := match streamOf q with
    | none => s.setPpPhase .readAccess
    | some p => s.burstGranted p
  t.beginAccess .read (portRequester q) (req.addr.getD 0#20) none

/-- The drain engine's request is granted: a READ, or a WRITE of the snapshot taken now (R36, R44). -/
def State.grantDrain (s : State) : State :=
  match s.mb.drain.entry with
  | none => s
  | some e =>
    let x := s.mb.entry e
    match s.mb.drain.phase with
    | .readWait =>
      (s.setMb { s.mb.setEntry e { x with state := .reading } with
        drain := { phase := .readAccess, entry := some e } }).beginAccess .read .dr x.addr none
    | .writeWait =>
      (s.setMb { s.mb.setEntry e { x with state := .writing, reopened := false } with
        drain := { phase := .writeAccess, entry := some e } }).beginAccess .write .dr x.addr (some x.data)
    | .resolveWait =>
      (s.setMb { s.mb.setEntry e { x with state := .writing, reopened := false, resolvePending := false } with
        drain := { phase := .resolveAccess, entry := some e } }).beginAccess .write .dr x.addr (some x.data)
    | .idle | .readAccess | .writeAccess | .resolveAccess => s

/-- The atomic engine's request is granted: the oldest entry in WAIT_GRANT enters IN_ARRAY (R60). -/
def State.grantAtomic (s : State) : State :=
  match s.wlt.find? (·.state == .waitGrant) with
  | none => s
  | some e => (s.setLockState e.port .inArray).beginAccess .paired .ae e.addr none

/-- The scrub engine's request is granted (R161, R167). -/
def State.grantScrub (s : State) : State :=
  match s.sce.state with
  | .patrolRequest =>
    (s.setSce { s.sce with state := .patrolAccess }).beginAccess .paired .sc s.sce.patrolPtr none
  | .fillRequest =>
    (s.setSce { s.sce with state := .fillAccess }).beginAccess .write .sc s.sce.fillPtr (some s.sce.fillPattern)
  | .idle | .patrolWait | .patrolAccess | .fillAccess => s

/-- ARRAY_GRANT: the winner's slot empties, the winner acts and its access begins (R76, R77, R81). -/
def State.grant (s : State) : State :=
  match s.winner with
  | none => s
  | some (r, tier3) =>
    let t := s.arbGrant r tier3
    match r, s.arb.slots.get r with
    | _, none => s
    | .pp, some q => t.grantPort .pp q
    | .sp0, some q => t.grantPort .sp0 q
    | .sp1, some q => t.grantPort .sp1 q
    | .dr, some _ => t.grantDrain
    | .ae, some _ => t.grantAtomic
    | .sc, some _ => t.grantScrub

/-! ### The due events (log 3) -/

/-- One element when a condition holds. -/
def oneIf (c : Bool) (d : Due) : List Due := if c then [d] else []

/-- The events due, but for the grant and the end of quiesce. While a waiting writer can be served, no other event than
a hold release comes before it: the list is served before later arrivals (R26). -/
def State.dueWork (s : State) : List Due :=
  let releases := oneIf (s.lockReleasable .pp) (.lockRelease .pp) ++ oneIf (s.lockReleasable .sp0) (.lockRelease .sp0) ++
    oneIf (s.lockReleasable .sp1) (.lockRelease .sp1)
  if s.nextWaiter.isSome then .waiterAlloc :: releases
  else
    releases ++
    oneIf (s.fenceReleasable .pp) (.fenceRelease .pp) ++ oneIf (s.fenceReleasable .sp0) (.fenceRelease .sp0) ++
    oneIf (s.fenceReleasable .sp1) (.fenceRelease .sp1) ++
    oneIf s.signalled.isSome .forcedSignal ++ oneIf s.flushReady .flushDone ++
    oneIf (s.expiryReady .sp0) (.beatExpiry .sp0) ++ oneIf (s.expiryReady .sp1) (.beatExpiry .sp1) ++
    oneIf s.intervalReady .intervalExpiry ++
    oneIf (s.linkReady .sp0) (.linkTake .sp0) ++ oneIf (s.linkReady .sp1) (.linkTake .sp1) ++
    oneIf s.prqReady .prqDispatch ++ oneIf (s.srqReady .sp0) (.srqDispatch .sp0) ++
    oneIf (s.srqReady .sp1) (.srqDispatch .sp1) ++
    oneIf s.resolveReady .resolveRequest ++ oneIf s.drainReady .drainStart

/-- The events due. A grant at the interface's return to IDLE is made with the requests as they stand after the rest of
that event; a request that arrives at an IDLE interface is granted at its arrival, or another due event comes first and
its request too waits at that grant (R76; logs 3 and 29). The end of quiesce comes before
a grant: a resolve write that waits does not stop the controller entering HALTED, and is granted in HALTED (R105).
Nothing is due in reset (R198). -/
def State.due (s : State) : List Due :=
  if s.resetAsserted then []
  else
    s.dueWork ++ oneIf s.quiesceReady .quiesce ++
    oneIf (s.grantReady && !s.quiesceReady && (!s.own.backToIdle || s.dueWork.isEmpty)) .grant

/-- What a due event does. -/
def State.fire (s : State) (d : Due) : State :=
  match d with
  | .prqDispatch => s.prqDispatch
  | .srqDispatch p => s.srqDispatch p
  | .linkTake p => s.linkTake p
  | .lockRelease q => s.lockRelease q
  | .fenceRelease q => s.fenceRelease q
  | .waiterAlloc => s.allocateWaiter
  | .forcedSignal => s.forcedSignal
  | .flushDone => s.flushComplete
  | .drainStart => s.drainStart
  | .resolveRequest => s.resolveRequest
  | .beatExpiry p => s.beatExpiry p
  | .intervalExpiry => s.intervalExpiry
  | .grant => s.grant
  | .quiesce => s.quiesceComplete

/-! ### Taking the due events (logs 1, 2, 3) -/

/-- One of the due events that pass a test is taken: the only one, or one in a free order (log 3). -/
def State.settleOne (keep : State → Due → Bool) (s : State) : State :=
  match s.due.filter (keep s) with
  | [] => s
  | [d] => s.fire d
  | d :: ds => s.bumpFree.fire ((d :: ds).getD (Config.order s.own.freeCount % (d :: ds).length) d)

/-- Due events are taken one after another until none that passes the test is left. -/
def State.settleWith (keep : State → Due → Bool) (fuel : Nat) (s : State) : State :=
  match fuel with
  | 0 => s
  | n + 1 => if (s.due.filter (keep s)).isEmpty then s else State.settleWith keep n (s.settleOne keep)

/-- More events than one event from outside sets in motion: the queues and the frames on the links bound them. -/
def State.settleFuel (s : State) : Nat := 256 + 8 * (s.sp0.inbound.length + s.sp1.inbound.length)

/-- Every due event is taken. -/
def State.settle (s : State) : State := s.settleWith (fun _ _ => true) s.settleFuel

/-- The mark of the interface's return to IDLE is cleared: it belongs to the event that ended the access (R76, log 4). -/
def State.endEvent (s : State) : State := s.setOwn { s.own with backToIdle := false }

/-- An event from outside begins: what the events before it set in motion has come about (log 1). -/
def State.eventStart (s : State) : State := s.settle.endEvent

/-- The event is a hold release by a lock's removal. -/
def Due.isLockRelease : Due → Bool
  | .lockRelease _ => true
  | _ => false

/-- An event from outside reaches the part together with the releases of held requests and is taken before them
(R64, log 18). -/
def State.eventTogether (s : State) : State := s.settleWith (fun _ d => !d.isLockRelease) s.settleFuel

/-- The event is a grant that a withdrawal at the present event may come before: at the interface's return to IDLE
(R82, R170), or of requests among which the patrol's waits, since its interval expired (R160). The patrol's request is
then in its slot already, so another requester's request of the present event that is granted first counts as a bypass of
it: the spec leaves that count open (R76, R80), and it is the model's choice (log 29). -/
def State.openGrant (s : State) (d : Due) : Bool := d == .grant && (s.own.backToIdle || s.sce.state == .patrolRequest)

/-- An event from outside that may withdraw a request reaches the part together with the event at which the request
would be granted, and is taken after that event's requests and before the grant (R82, R160, R170; log 18). -/
def State.eventBeforeGrant (s : State) : State := (s.settleWith (fun t d => !t.openGrant d) s.settleFuel).endEvent

/-- Where an event from outside begins, by the order its operand names: before the grant of the event it reaches the part
together with, or after all that is due (log 18). -/
def State.eventStartBy (s : State) (together : Bool) : State :=
  if together then s.eventBeforeGrant else s.eventStart

/-- A row of the part's own: the event happens when it is due, and not otherwise (log 20). -/
def State.internal (s : State) (d : Due) : State := if s.due.contains d then s.fire d else s

/-- A row from outside: in reset nothing happens (R198); else it acts after what is due. -/
def State.outside (s : State) (f : State → State) : State := if s.resetAsserted then s else f s.eventStart

/-- A row from outside that may come before a grant (log 18). -/
def State.outsideBy (s : State) (together : Bool) (f : State → State) : State :=
  if s.resetAsserted then s else f (s.eventStartBy together)

end Sys2Proof.Machine
end

