-- ==== Sys2Proof/Machine/Window.lean ====
section
/-! DEFINITION. The register window: the layout of every register and what a read returns (chapter 10), and how a bus
access is taken (R188, R198). -/

namespace Sys2Proof.Machine

/-! ### Fields -/

/-- Bits packed into a number, the first in bit 0. -/
def packBits : List Bool → Nat
  | [] => 0
  | b :: bs => b.toNat + 2 * packBits bs

/-- The low half of a 32-bit quantity (R190). -/
def wordLo (w : Word) : Reg16 := w.extractLsb' 0 16

/-- The high half of a 32-bit quantity (R190). -/
def wordHi (w : Word) : Reg16 := w.extractLsb' 16 16

/-- A 32-bit quantity with its low half replaced (R190). -/
def setWordLo (w : Word) (v : Reg16) : Word := (wordHi w ++ v : BitVec 32)

/-- A 32-bit quantity with its high half replaced (R190). -/
def setWordHi (w : Word) (v : Reg16) : Word := (v ++ wordLo w : BitVec 32)

/-- Bits 15:0 of a word address. -/
def addrLo (a : Addr) : Reg16 := a.extractLsb' 0 16

/-- Bits 19:16 of a word address, in the 4 low bits. -/
def addrHi (a : Addr) : Reg16 := (a.extractLsb' 16 4).setWidth 16

/-- A word address with bits 15:0 replaced. -/
def setAddrLo (a : Addr) (v : Reg16) : Addr := (a.extractLsb' 16 4 ++ v : BitVec 20)

/-- A word address with bits 19:16 replaced from the 4 low bits written. -/
def setAddrHi (a : Addr) (v : Reg16) : Addr := (v.extractLsb' 0 4 ++ addrLo a : BitVec 20)

/-- A byte address with bits 15:0 replaced (R112). -/
def setByteAddrLo (a : ByteAddr) (v : Reg16) : ByteAddr := (a.extractLsb' 16 6 ++ v : BitVec 22)

/-- A byte address with bits 21:16 replaced from the 6 low bits written (R112). -/
def setByteAddrHi (a : ByteAddr) (v : Reg16) : ByteAddr := (v.extractLsb' 0 6 ++ a.extractLsb' 0 16 : BitVec 22)

/-! ### Layouts (R193) -/

/-- CTRL_STATUS (Table 10-3). -/
def State.ctrlStatus (s : State) : Reg16 :=
  BitVec.ofNat 16 (s.ctl.state.code + 16 * s.ctl.configRefused.toNat + 256 * packBits s.quiesceConditions)

/-- COMMAND_RESULT (R194). -/
def State.commandResult (s : State) : Reg16 := BitVec.ofNat 16 (s.ctl.cmdResult.code + 256 * s.ctl.cmdCode.toNat)

/-- QUEUE_LEVELS (R114). -/
def State.queueLevels (s : State) : Reg16 :=
  BitVec.ofNat 16 (s.ppt.prq.length + 8 * s.ppt.exec.isSome.toNat + 256 * s.ppt.cq.length)

/-- What CPL_POP returns: the head record, or EMPTY (R123). -/
def State.cplHead (s : State) : Reg16 :=
  match s.ppt.cq with
  | [] => 0#16
  | c :: _ => BitVec.ofNat 16 (c.status.code + 16 * c.op.code + 256 * c.tag.toNat)

/-- MB_SUMMARY (R49). -/
def State.mbSummary (s : State) : Reg16 :=
  BitVec.ofNat 16
    (packBits (entryIds.map fun e => (s.mb.entry e).state == .faulted) +
     256 * s.mb.count (fun e => e.state == .pending) + 4096 * s.mb.count (fun e => e.state == .reading) +
     8192 * s.mb.count (fun e => e.state == .writing) + 16384 * s.mb.waiting.length)

/-- MBV_STATE for entry `e` (R50, Table 10-5). -/
def MergeBuffer.stateBits (mb : MergeBuffer) (e : Fin 8) : Reg16 :=
  let x := mb.entry e
  BitVec.ofNat 16
    (x.state.code + 16 * x.mask.toNat + 256 * mb.agePosition e + 2048 * x.selected.toNat + 4096 * x.forced.toNat +
     8192 * x.flushBound.toNat + 16384 * x.reopened.toNat + 32768 * x.resolvePending.toNat)

/-- The snapshot VIEW_ENTRY takes of entry `e` (R50). -/
def MergeBuffer.snapshot (mb : MergeBuffer) (e : Fin 8) : EntryView :=
  { state := mb.stateBits e
    addr := if (mb.entry e).active then (mb.entry e).addr else 0#20
    data := (mb.entry e).data &&& laneBits (mb.entry e).mask }

/-- SPn_STATUS_LO (R129, Table 10-5). -/
def StreamPort.statusLo (sp : StreamPort) : Reg16 :=
  BitVec.ofNat 16
    (sp.state.code + 4 * sp.srq.length + 32 * sp.credits + 256 * sp.cause.code + 2048 * sp.burst.isSome.toNat +
     4096 * sp.discardedRead.isSome.toNat)

/-- SPn_STATUS_HI (R129, Table 10-5). -/
def StreamPort.statusHi (sp : StreamPort) : Reg16 :=
  match sp.burst with
  | none => 0#16
  | some b => BitVec.ofNat 16 (b.hdr.tag.toNat + 16 * b.hdr.op.code + 128 * b.phase.code + 2048 * b.done)

/-- SPn_CONFIG (R136). -/
def StreamPort.config (sp : StreamPort) : Reg16 :=
  BitVec.ofNat 16 (sp.beatTimeout.toNat + 256 * sp.suspendOnFault.toNat)

/-- SCR_STATUS (R172). -/
def Scrub.status (x : Scrub) : Reg16 :=
  BitVec.ofNat 16 (x.state.code + 8 * x.stopPending.toNat + 16 * x.lastMode.code + 64 * x.fillResult.code)

/-- SCR_POINTER: the patrol pointer while last mode is NONE or PATROL, the fill pointer while it is FILL (R172). -/
def Scrub.pointer (x : Scrub) : Addr := if x.lastMode = .fill then x.fillPtr else x.patrolPtr

/-- LOG_STATUS (R180). -/
def ErrorLog.status (x : ErrorLog) : Reg16 := BitVec.ofNat 16 (x.records.length + 256 * x.overflow.toNat)

/-- The code of an optional field; 0 when it is absent (R174). -/
def codeOr (x : Option Nat) : Nat := x.getD 0

/-- LOG_DETAIL of a record (Table 10-8). -/
def ErrorRecord.detail (r : ErrorRecord) : Reg16 :=
  let access := codeOr (r.access.map AccessType.code)
  let tag := codeOr (r.tag.map BitVec.toNat)
  match r.kind with
  | .corrected | .uncorrectable => BitVec.ofNat 16 (access + 16 * tag + 256 * codeOr (r.pos.map BitVec.toNat))
  | .alignFault | .addressFault | .regionFault => BitVec.ofNat 16 (access + 16 * tag)
  | .mergeFault =>
    BitVec.ofNat 16 (256 * codeOr (r.entry.map Fin.val) + 4096 * codeOr (r.mask.map BitVec.toNat))
  | .protocol => BitVec.ofNat 16 (access + 16 * tag + 256 * codeOr (r.cause.map ProtocolCause.code))

/-- The snapshot LOG_POP takes of a record (R180). -/
def ErrorRecord.view (r : ErrorRecord) : LogView :=
  { seq := r.seq, kind := BitVec.ofNat 16 (r.kind.code + 256 * r.source.code), addr := r.addr, detail := r.detail }

/-- The bits of IRQ_PENDING and IRQ_ENABLE that name a source (Table 10-7). -/
def irqSources : Reg16 := 0x0F3F#16

/-- The stored bits of REQ_OP (Table 10-3). -/
def reqOpStored : Reg16 := 0x0F3F#16

/-- The value of the register at an offset (Table 10-2); 0000h where the offset names none (R189). -/
def State.regRead (s : State) (off : BitVec 7) : Reg16 :=
  match off.toNat with
  | 0x00 => 0x4A58#16
  | 0x01 => s.ctrlStatus
  | 0x02 => 0#16
  | 0x03 => s.commandResult
  | 0x08 => s.cfg.memsize.setWidth 16
  | 0x09 => s.cfg.prescale
  | 0x0A => BitVec.ofNat 16 (s.cfg.lwm.toNat + 256 * s.cfg.hwm.toNat)
  | 0x0B => BitVec.ofNat 16 s.cfg.protect.toNat
  | 0x0C => BitVec.ofNat 16 s.cfg.logging.toNat
  | 0x10 => s.ppt.reqOp
  | 0x11 => s.ppt.reqAddr.extractLsb' 0 16
  | 0x12 => (s.ppt.reqAddr.extractLsb' 16 6).setWidth 16
  | 0x13 => wordLo s.ppt.reqOpA
  | 0x14 => wordHi s.ppt.reqOpA
  | 0x15 => wordLo s.ppt.reqOpB
  | 0x16 => wordHi s.ppt.reqOpB
  | 0x17 => 0#16
  | 0x18 => BitVec.ofNat 16 s.ppt.submitStatus.code
  | 0x19 => s.queueLevels
  | 0x1C => s.cplHead
  | 0x1D => wordLo s.ppt.cplData
  | 0x1E => wordHi s.ppt.cplData
  | 0x20 => s.acu.rgnFirst.setWidth 16
  | 0x21 => s.acu.rgnLast.setWidth 16
  | 0x22 => s.acu.rgnRights
  | 0x24 => s.acu.viewFirst.setWidth 16
  | 0x25 => s.acu.viewLast.setWidth 16
  | 0x26 => s.acu.viewRights
  | 0x28 => s.mbSummary
  | 0x29 => s.mb.view.state
  | 0x2A => addrLo s.mb.view.addr
  | 0x2B => addrHi s.mb.view.addr
  | 0x2C => wordLo s.mb.view.data
  | 0x2D => wordHi s.mb.view.data
  | 0x30 => s.sp0.statusLo
  | 0x31 => s.sp0.statusHi
  | 0x32 => s.sp0.config
  | 0x34 => s.sp1.statusLo
  | 0x35 => s.sp1.statusHi
  | 0x36 => s.sp1.config
  | 0x38 => s.sce.status
  | 0x39 => s.sce.regInterval
  | 0x3A => s.sce.passes
  | 0x3B => addrLo s.sce.pointer
  | 0x3C => addrHi s.sce.pointer
  | 0x40 => addrLo s.sce.regFillFirst
  | 0x41 => addrHi s.sce.regFillFirst
  | 0x42 => addrLo s.sce.regFillLast
  | 0x43 => addrHi s.sce.regFillLast
  | 0x44 => wordLo s.sce.regFillPattern
  | 0x45 => wordHi s.sce.regFillPattern
  | 0x48 => s.elog.status
  | 0x49 => s.elog.view.seq
  | 0x4A => s.elog.view.kind
  | 0x4B => s.elog.view.detail
  | 0x4C => addrLo s.elog.view.addr
  | 0x4D => addrHi s.elog.view.addr
  | 0x4E => s.elog.cntCorrected
  | 0x4F => s.elog.cntUncorrectable
  | 0x50 => s.irqPending
  | 0x51 => s.irq.enable
  | _ => 0#16

/-- What a read of the window returns, as an event after what is due (log 1): 0000h while RESET is asserted (R198). A
read of a register without an effect (every one but CTRL_STATUS and CPL_POP) changes nothing and is no row. -/
def State.windowRead (s : State) (off : BitVec 7) : Reg16 :=
  if s.resetAsserted then 0#16 else s.eventStart.regRead off

/-! ### Taking a bus access (R188, R198, R199) -/

/-- The strobes make an access: chip select is asserted, and the other strobe does not stand against it (R188). -/
def busAccess (b : Bus) : Bool := b.chipSelect && !b.otherStrobe && !b.crossed

/-- The strobes make an access that is taken (R188, R199). -/
def busTaken (b : Bus) : Bool := busAccess b && b.sinceRelease

/-- The data lines carry the value a read returns (R188). -/
def State.drive (s : State) (v : Reg16) : State := s.setCtl { s.ctl with readData := v }

/-- A write access: in reset it is ignored (R198); one that is not taken writes nothing (R188). -/
def State.busWrite (s : State) (b : Bus) (f : State → State) : State :=
  if busTaken b then s.outsideBy b.together f else s

/-- A read access: in reset it returns 0000h (R198); one that is not taken reads nothing (R188). -/
def State.busRead (s : State) (b : Bus) (f : State → State) : State :=
  if s.resetAsserted then (if busAccess b then s.drive 0#16 else s)
  else if busTaken b then f (s.eventStartBy b.together) else s

/-! ### Reads with an effect (R109, R123) -/

/-- A read of CTRL_STATUS returns it and clears CONFIG_REFUSED (R109). -/
def State.readCtrlStatus (s : State) : State :=
  s.setCtl { s.ctl with readData := s.ctrlStatus, configRefused := false }

/-- A read of CPL_POP returns the head record, removes it and copies its data; an empty queue returns EMPTY and changes
nothing else (R123). -/
def State.popCompletion (s : State) : State :=
  match s.ppt.cq with
  | [] => s.drive s.cplHead
  | c :: rest => (s.setPpt { s.ppt with cq := rest, cplData := c.data }).drive s.cplHead

/-! ### The rows -/

/-- CTRL_STATUS_READ (R109). -/
def execCtrlStatusRead (b : Bus) (s : State) : Host.Outcome State Fault Refusal :=
  .next (s.busRead b State.readCtrlStatus)

/-- CPL_POP (R123). -/
def execCplPop (b : Bus) (s : State) : Host.Outcome State Fault Refusal := .next (s.busRead b State.popCompletion)

end Sys2Proof.Machine
end

