-- ==== Sys2Proof/Machine/Commands.lean ====
section
/-! DEFINITION. The direct commands (R107, R194): what each answers and does. -/

namespace Sys2Proof.Machine

/-- What a command answers and the state it leaves; COMMAND_RESULT itself is written by `State.command`. -/
abbrev CmdOutcome := CmdResult × State

/-- A command is written: it acts, and its result and code are placed in COMMAND_RESULT (R107, R194). -/
def State.command (s : State) (code : BitVec 8) (f : State → CmdOutcome) : State :=
  let r := f s
  r.2.setCtl { r.2.ctl with cmdResult := r.1, cmdCode := code }

/-! ### Controller state (R103, R104, R171) -/

/-- RUN (R103). -/
def State.cmdRun (s : State) : CmdOutcome :=
  if s.ctl.state = .halted then (.done, s.setCtl { s.ctl with state := .running }) else (.refusedState, s)

/-- The scrub engine at a HALT (R171). -/
def State.scrubHalt (s : State) : State :=
  match s.sce.state with
  | .idle => s
  | .patrolWait => s.setSce { s.sce with state := .idle, intervalDue := false }
  | .patrolRequest => s.withdrawScrub.setSce { s.sce with state := .idle }
  | .fillRequest => s.withdrawScrub.setSce { s.sce with state := .idle, fillResult := .stopped }
  | .patrolAccess | .fillAccess => s.setSce { s.sce with stopPending := true }

/-- HALT: QUIESCING, or HALTED at once when the quiesce conditions hold (R104, R105). -/
def State.cmdHalt (s : State) : CmdOutcome :=
  if s.ctl.state = .running then
    let t := (s.setCtl { s.ctl with state := .quiescing }).scrubHalt
    (.done, if t.quiesced then t.quiesceComplete else t)
  else (.refusedState, s)

/-! ### The stream ports (R131 to R134) -/

/-- The port an argument names. -/
def portOfArg (arg : BitVec 8) : Option SpId :=
  if arg = 0#8 then some .sp0 else if arg = 1#8 then some .sp1 else none

/-- PORT_ENABLE (R131). -/
def State.cmdPortEnable (arg : BitVec 8) (s : State) : CmdOutcome :=
  match portOfArg arg with
  | none => (.refusedArgument, s)
  | some p =>
    if (s.sp p).state = .disabled then
      (.done, (s.setSp p { s.sp p with state := .enabled, credits := 4 }).send p [.credit 4])
    else (.refusedState, s)

/-- PORT_DISABLE (R132). -/
def State.cmdPortDisable (arg : BitVec 8) (s : State) : CmdOutcome :=
  match portOfArg arg with
  | none => (.refusedArgument, s)
  | some p => if (s.sp p).state.credited then (.done, s.portDisable p) else (.refusedState, s)

/-- PORT_RESET (R133). -/
def State.cmdPortReset (arg : BitVec 8) (s : State) : CmdOutcome :=
  match portOfArg arg with
  | none => (.refusedArgument, s)
  | some p => (.done, s.portReset p)

/-- PORT_RESUME (R134). -/
def State.cmdPortResume (arg : BitVec 8) (s : State) : CmdOutcome :=
  match portOfArg arg with
  | none => (.refusedArgument, s)
  | some p =>
    if (s.sp p).state = .suspended then (.done, s.setSp p { s.sp p with state := .enabled }) else (.refusedState, s)

/-! ### The region table (R96, R98) -/

/-- The descriptor an argument names. -/
def regionOfArg (arg : BitVec 8) : Option (Fin 16) :=
  if h : arg.toNat < 16 then some ⟨arg.toNat, h⟩ else none

/-- LOAD_REGION (R96). -/
def State.cmdLoadRegion (arg : BitVec 8) (s : State) : CmdOutcome :=
  match regionOfArg arg with
  | none => (.refusedArgument, s)
  | some n =>
    if s.acu.rgnLast < s.acu.rgnFirst then (.refusedArgument, s)
    else
      (.done,
       s.setAcu
         { s.acu with regions := s.acu.regions.set n (.ofStaged s.acu.rgnFirst s.acu.rgnLast s.acu.rgnRights) })

/-- VIEW_REGION (R98). -/
def State.cmdViewRegion (arg : BitVec 8) (s : State) : CmdOutcome :=
  match regionOfArg arg with
  | none => (.refusedArgument, s)
  | some n =>
    let d := s.acu.regions[n]
    (.done, s.setAcu { s.acu with viewFirst := d.first, viewLast := d.last, viewRights := d.rightsBits })

/-! ### Merge buffer entries (R42, R43, R50) -/

/-- The entry an argument names. -/
def entryOfArg (arg : BitVec 8) : Option (Fin 8) :=
  if h : arg.toNat < 8 then some ⟨arg.toNat, h⟩ else none

/-- VIEW_ENTRY (R50). -/
def State.cmdViewEntry (arg : BitVec 8) (s : State) : CmdOutcome :=
  match entryOfArg arg with
  | none => (.refusedArgument, s)
  | some e => (.done, s.setMb { s.mb with view := s.mb.snapshot e })

/-- FAULTED entry `e` is freed without its write; a resolve write that waits for it is withdrawn (R42). -/
def State.resolveDiscard (s : State) (e : Fin 8) : State :=
  if s.mb.drain = { phase := .resolveWait, entry := some e } then
    (s.setMb (s.mb.release e).drainIdle).setSlot .dr none
  else s.setMb (s.mb.release e)

/-- RESOLVE_DISCARD (R42). -/
def State.cmdResolveDiscard (arg : BitVec 8) (s : State) : CmdOutcome :=
  match entryOfArg arg with
  | none => (.refusedArgument, s)
  | some e => if (s.mb.entry e).state = .faulted then (.done, s.resolveDiscard e) else (.refusedState, s)

/-- FAULTED entry with its missing lanes 00h, full and resolve-pending (R43). -/
def Entry.force (x : Entry) : Entry :=
  { x with data := overlayLanes 0#32 x.data x.mask, mask := 15#4, resolvePending := true }

/-- RESOLVE_FORCE (R43). -/
def State.cmdResolveForce (arg : BitVec 8) (s : State) : CmdOutcome :=
  match entryOfArg arg with
  | none => (.refusedArgument, s)
  | some e =>
    if (s.mb.entry e).state = .faulted ∧ (s.mb.entry e).resolvePending = false then
      (.done, s.setMb (s.mb.setEntry e (s.mb.entry e).force))
    else (.refusedState, s)

/-! ### The scrub engine (R159, R164 to R166, R170) -/

/-- SCRUB_START (R159). -/
def State.cmdScrubStart (s : State) : CmdOutcome :=
  if s.ctl.state = .running ∧ s.sce.state = .idle then
    if s.sce.regInterval = 0#16 then (.refusedArgument, s)
    else (.done, s.setSce { s.sce with state := .patrolWait, intervalCount := 0, lastMode := .patrol })
  else (.refusedState, s)

/-- SCRUB_STOP (R164). -/
def State.cmdScrubStop (s : State) : CmdOutcome :=
  match s.sce.state with
  | .patrolWait => (.done, s.setSce { s.sce with state := .idle, intervalDue := false })
  | .patrolRequest => (.done, s.withdrawScrub.setSce { s.sce with state := .idle })
  | .patrolAccess => (.done, s.setSce { s.sce with stopPending := true })
  | .idle | .fillRequest | .fillAccess => (.refusedState, s)

/-- A READ of a port waits at the arbiter for a word of the range, or is in flight for one (R165). A burst that stands in
READ_WAIT for such a word counts while its request has yet to be made behind a discarded read (log 14). -/
def State.portReadIn (s : State) (first last : Addr) : Bool :=
  [s.arb.slots.pp, s.arb.slots.sp0, s.arb.slots.sp1].any (fun r =>
    match r with
    | some { kind := _, addr := some a } => inRange first last a
    | some { kind := _, addr := none } | none => false) ||
  s.aif.access.any (fun a =>
    (a.requester == .pp || a.requester == .sp0 || a.requester == .sp1) && inRange first last a.addr) ||
  [s.sp0.burst, s.sp1.burst].any (fun b =>
    match b with
    | some b => b.phase == .readWait && inRange first last b.word
    | none => false)

/-- The range holds master's work (R165, step 3). -/
def State.masterWork (s : State) (first last : Addr) : Bool :=
  s.mb.rangeBusy first last || s.wlt.any (fun e => inRange first last e.addr) || s.portReadIn first last

/-- What FILL_START does when it is taken (R166). -/
def State.fillBegin (s : State) : State :=
  (s.setSce
    { s.sce with
      state := .fillRequest
      fillFirst := s.sce.regFillFirst
      fillLast := s.sce.regFillLast
      fillPattern := s.sce.regFillPattern
      fillPtr := s.sce.regFillFirst
      lastMode := .fill
      fillResult := .running }).request .sc .write s.sce.regFillFirst

/-- FILL_START (R165, R166). -/
def State.cmdFillStart (s : State) : CmdOutcome :=
  let first := s.sce.regFillFirst
  let last := s.sce.regFillLast
  if ¬ (s.ctl.state = .running ∧ s.sce.state = .idle) then (.refusedState, s)
  else if last < first ∨ s.cfg.size ≤ last.toNat then (.refusedArgument, s)
  else if s.masterWork first last then (.refusedState, s)
  else (.done, s.fillBegin)

/-- FILL_STOP (R170). -/
def State.cmdFillStop (s : State) : CmdOutcome :=
  match s.sce.state with
  | .fillRequest => (.done, s.withdrawScrub.setSce { s.sce with state := .idle, fillResult := .stopped })
  | .fillAccess => (.done, s.setSce { s.sce with stopPending := true })
  | .idle | .patrolWait | .patrolRequest | .patrolAccess => (.refusedState, s)

/-! ### The error log (R178, R179, R183) -/

/-- LOG_POP (R178). -/
def State.cmdLogPop (s : State) : CmdOutcome :=
  match s.elog.records with
  | [] => (.refusedState, s)
  | r :: rest => (.done, s.setElog { s.elog with records := rest, view := r.view })

/-- LOG_CLEAR_OVERFLOW (R179). -/
def State.cmdLogClearOverflow (s : State) : CmdOutcome := (.done, s.setElog { s.elog with overflow := false })

/-- CLEAR_COUNTS (R183). -/
def State.cmdClearCounts (s : State) : CmdOutcome :=
  (.done, s.setElog { s.elog with cntCorrected := 0#16, cntUncorrectable := 0#16 })

/-! ### Codes (Table 10-9) -/

/-- The command a code names, or UNKNOWN (R194). -/
def State.cmdOfCode (code arg : BitVec 8) (s : State) : CmdOutcome :=
  match code.toNat with
  | 0x01 => s.cmdRun
  | 0x02 => s.cmdHalt
  | 0x08 => s.cmdPortEnable arg
  | 0x09 => s.cmdPortDisable arg
  | 0x0A => s.cmdPortReset arg
  | 0x0B => s.cmdPortResume arg
  | 0x10 => s.cmdLoadRegion arg
  | 0x11 => s.cmdViewRegion arg
  | 0x18 => s.cmdViewEntry arg
  | 0x19 => s.cmdResolveDiscard arg
  | 0x1A => s.cmdResolveForce arg
  | 0x20 => s.cmdScrubStart
  | 0x21 => s.cmdScrubStop
  | 0x22 => s.cmdFillStart
  | 0x23 => s.cmdFillStop
  | 0x28 => s.cmdLogPop
  | 0x29 => s.cmdLogClearOverflow
  | 0x2A => s.cmdClearCounts
  | _ => (.unknown, s)

/-! ### The rows -/

/-- RUN (R103); the argument is ignored. -/
def execRun (b : Bus) (_arg : BitVec 8) (s : State) : Host.Outcome State Fault Refusal :=
  .next (s.busWrite b fun t => t.command 0x01#8 State.cmdRun)

/-- HALT (R104); the argument is ignored. -/
def execHalt (b : Bus) (_arg : BitVec 8) (s : State) : Host.Outcome State Fault Refusal :=
  .next (s.busWrite b fun t => t.command 0x02#8 State.cmdHalt)

/-- PORT_ENABLE (R131). -/
def execPortEnable (b : Bus) (arg : BitVec 8) (s : State) : Host.Outcome State Fault Refusal :=
  .next (s.busWrite b fun t => t.command 0x08#8 (State.cmdPortEnable arg))

/-- PORT_DISABLE (R132). -/
def execPortDisable (b : Bus) (arg : BitVec 8) (s : State) : Host.Outcome State Fault Refusal :=
  .next (s.busWrite b fun t => t.command 0x09#8 (State.cmdPortDisable arg))

/-- PORT_RESET (R133). -/
def execPortReset (b : Bus) (arg : BitVec 8) (s : State) : Host.Outcome State Fault Refusal :=
  .next (s.busWrite b fun t => t.command 0x0A#8 (State.cmdPortReset arg))

/-- PORT_RESUME (R134). -/
def execPortResume (b : Bus) (arg : BitVec 8) (s : State) : Host.Outcome State Fault Refusal :=
  .next (s.busWrite b fun t => t.command 0x0B#8 (State.cmdPortResume arg))

/-- LOAD_REGION (R96). -/
def execLoadRegion (b : Bus) (arg : BitVec 8) (s : State) : Host.Outcome State Fault Refusal :=
  .next (s.busWrite b fun t => t.command 0x10#8 (State.cmdLoadRegion arg))

/-- VIEW_REGION (R98). -/
def execViewRegion (b : Bus) (arg : BitVec 8) (s : State) : Host.Outcome State Fault Refusal :=
  .next (s.busWrite b fun t => t.command 0x11#8 (State.cmdViewRegion arg))

/-- VIEW_ENTRY (R50). -/
def execViewEntry (b : Bus) (arg : BitVec 8) (s : State) : Host.Outcome State Fault Refusal :=
  .next (s.busWrite b fun t => t.command 0x18#8 (State.cmdViewEntry arg))

/-- RESOLVE_DISCARD (R42). -/
def execResolveDiscard (b : Bus) (arg : BitVec 8) (s : State) : Host.Outcome State Fault Refusal :=
  .next (s.busWrite b fun t => t.command 0x19#8 (State.cmdResolveDiscard arg))

/-- RESOLVE_FORCE (R43). -/
def execResolveForce (b : Bus) (arg : BitVec 8) (s : State) : Host.Outcome State Fault Refusal :=
  .next (s.busWrite b fun t => t.command 0x1A#8 (State.cmdResolveForce arg))

/-- SCRUB_START (R159); the argument is ignored. -/
def execScrubStart (b : Bus) (_arg : BitVec 8) (s : State) : Host.Outcome State Fault Refusal :=
  .next (s.busWrite b fun t => t.command 0x20#8 State.cmdScrubStart)

/-- SCRUB_STOP (R164); the argument is ignored. -/
def execScrubStop (b : Bus) (_arg : BitVec 8) (s : State) : Host.Outcome State Fault Refusal :=
  .next (s.busWrite b fun t => t.command 0x21#8 State.cmdScrubStop)

/-- FILL_START (R165); the argument is ignored. -/
def execFillStart (b : Bus) (_arg : BitVec 8) (s : State) : Host.Outcome State Fault Refusal :=
  .next (s.busWrite b fun t => t.command 0x22#8 State.cmdFillStart)

/-- FILL_STOP (R170); the argument is ignored. -/
def execFillStop (b : Bus) (_arg : BitVec 8) (s : State) : Host.Outcome State Fault Refusal :=
  .next (s.busWrite b fun t => t.command 0x23#8 State.cmdFillStop)

/-- LOG_POP (R178); the argument is ignored. -/
def execLogPop (b : Bus) (_arg : BitVec 8) (s : State) : Host.Outcome State Fault Refusal :=
  .next (s.busWrite b fun t => t.command 0x28#8 State.cmdLogPop)

/-- LOG_CLEAR_OVERFLOW (R179); the argument is ignored. -/
def execLogClearOverflow (b : Bus) (_arg : BitVec 8) (s : State) : Host.Outcome State Fault Refusal :=
  .next (s.busWrite b fun t => t.command 0x29#8 State.cmdLogClearOverflow)

/-- CLEAR_COUNTS (R183); the argument is ignored. -/
def execClearCounts (b : Bus) (_arg : BitVec 8) (s : State) : Host.Outcome State Fault Refusal :=
  .next (s.busWrite b fun t => t.command 0x2A#8 State.cmdClearCounts)

/-- A COMMAND write by its code (R194): a code that names no command changes nothing but COMMAND_RESULT; one that names
a command is that command (log 19). -/
def execUnknownCommand (b : Bus) (code arg : BitVec 8) (s : State) : Host.Outcome State Fault Refusal :=
  .next (s.busWrite b fun t => t.command code (State.cmdOfCode code arg))

end Sys2Proof.Machine
end

