-- ==== Sys2Proof/Machine/Registers.lean ====
section
/-! DEFINITION. The window's writes: REQ_SUBMIT, the configuration registers, IRQ_PENDING and every other register
(chapters 06 and 10). -/

namespace Sys2Proof.Machine

/-! ### REQ_SUBMIT (R113, R114) -/

/-- REQ_SUBMIT: the staging registers are tested, then the queue; an accepted request joins the tail of the PRQ (R113,
R114). -/
def State.submit (s : State) : State :=
  match s.ppt.staged with
  | none => s.setPpt { s.ppt with submitStatus := .invalid }
  | some r =>
    if s.ppt.prq.length < 4 then
      s.setPpt { s.ppt with submitStatus := .accepted, prq := s.ppt.prq ++ [r] }
    else s.setPpt { s.ppt with submitStatus := .queueFull }

/-! ### Configuration writes (R5, R6, R33, R94, R108, R111) -/

/-- A configuration write is taken in HALTED when it is legal; otherwise it is refused and sets CONFIG_REFUSED
(R108). -/
def State.cfgWrite (s : State) (legal : Bool) (f : State → State) : State :=
  if s.ctl.state = .halted ∧ legal then f s else s.setCtl { s.ctl with configRefused := true }

/-- CFG_MEMSIZE: the stored code is 0 to 4 and every entry is FREE; the patrol pointer moves to 0 when it is not below the
new size (R5, R6). -/
def State.writeMemsize (v : Reg16) (s : State) : State :=
  let code : BitVec 3 := v.extractLsb' 0 3
  s.cfgWrite (code ≤ 4#3 && s.mb.allFree) fun t =>
    let t := t.setCfg { t.cfg with memsize := code }
    if t.cfg.size ≤ t.sce.patrolPtr.toNat then t.setSce { t.sce with patrolPtr := 0#20 } else t

/-- CFG_PRESCALE: the whole value is 1 to 1023; the prescale count returns to 0 (R111). -/
def State.writePrescale (v : Reg16) (s : State) : State :=
  s.cfgWrite (1#16 ≤ v && v ≤ 1023#16) fun t =>
    (t.setCfg { t.cfg with prescale := v }).setCtl { t.ctl with prescaleCount := 0 }

/-- CFG_WATERMARKS: 1 ≤ LWM ≤ HWM ≤ 8 by the stored fields (R33). -/
def State.writeWatermarks (v : Reg16) (s : State) : State :=
  let l : BitVec 4 := v.extractLsb' 0 4
  let h : BitVec 4 := v.extractLsb' 8 4
  s.cfgWrite (1#4 ≤ l && l ≤ h && h ≤ 8#4) fun t => t.setCfg { t.cfg with lwm := l, hwm := h }

/-- CFG_PROTECT: the enable is bit 0 (R94). -/
def State.writeProtect (v : Reg16) (s : State) : State :=
  s.cfgWrite true fun t => t.setCfg { t.cfg with protect := v.getLsbD 0 }

/-! ### IRQ_PENDING (R185) -/

/-- IRQ_PENDING: each sticky source written with 1 is cleared; the level sources ignore the write (R185). -/
def State.writeIrqPending (v : Reg16) (s : State) : State :=
  s.setIrq
    { s.irq with
      mbBlocked := s.irq.mbBlocked && !v.getLsbD 8
      scrubPass := s.irq.scrubPass && !v.getLsbD 9
      fillDone := s.irq.fillDone && !v.getLsbD 10
      haltDone := s.irq.haltDone && !v.getLsbD 11 }

/-! ### The other registers (R95, R112, R136, R158, R181, R186, R189) -/

/-- SPn_CONFIG: both fields are replaced (R136). -/
def State.writeSpConfig (p : SpId) (v : Reg16) (s : State) : State :=
  s.setSp p { s.sp p with beatTimeout := v.extractLsb' 0 8, suspendOnFault := v.getLsbD 8 }

/-- A write of the register at an offset: the stored fields are replaced; RO registers and offsets that name none ignore
it (R189). The offsets with a behaviour of their own have it (log 19). -/
def State.regWrite (off : BitVec 7) (v : Reg16) (s : State) : State :=
  match off.toNat with
  | 0x02 => s.command (v.extractLsb' 8 8) (State.cmdOfCode (v.extractLsb' 8 8) (v.extractLsb' 0 8))
  | 0x08 => s.writeMemsize v
  | 0x09 => s.writePrescale v
  | 0x0A => s.writeWatermarks v
  | 0x0B => s.writeProtect v
  | 0x0C => s.setCfg { s.cfg with logging := v.getLsbD 0 }
  | 0x10 => s.setPpt { s.ppt with reqOp := v &&& reqOpStored }
  | 0x11 => s.setPpt { s.ppt with reqAddr := setByteAddrLo s.ppt.reqAddr v }
  | 0x12 => s.setPpt { s.ppt with reqAddr := setByteAddrHi s.ppt.reqAddr v }
  | 0x13 => s.setPpt { s.ppt with reqOpA := setWordLo s.ppt.reqOpA v }
  | 0x14 => s.setPpt { s.ppt with reqOpA := setWordHi s.ppt.reqOpA v }
  | 0x15 => s.setPpt { s.ppt with reqOpB := setWordLo s.ppt.reqOpB v }
  | 0x16 => s.setPpt { s.ppt with reqOpB := setWordHi s.ppt.reqOpB v }
  | 0x17 => s.submit
  | 0x20 => s.setAcu { s.acu with rgnFirst := v.extractLsb' 0 14 }
  | 0x21 => s.setAcu { s.acu with rgnLast := v.extractLsb' 0 14 }
  | 0x22 => s.setAcu { s.acu with rgnRights := v &&& rightsStored }
  | 0x32 => s.writeSpConfig .sp0 v
  | 0x36 => s.writeSpConfig .sp1 v
  | 0x39 => s.setSce { s.sce with regInterval := v }
  | 0x40 => s.setSce { s.sce with regFillFirst := setAddrLo s.sce.regFillFirst v }
  | 0x41 => s.setSce { s.sce with regFillFirst := setAddrHi s.sce.regFillFirst v }
  | 0x42 => s.setSce { s.sce with regFillLast := setAddrLo s.sce.regFillLast v }
  | 0x43 => s.setSce { s.sce with regFillLast := setAddrHi s.sce.regFillLast v }
  | 0x44 => s.setSce { s.sce with regFillPattern := setWordLo s.sce.regFillPattern v }
  | 0x45 => s.setSce { s.sce with regFillPattern := setWordHi s.sce.regFillPattern v }
  | 0x50 => s.writeIrqPending v
  | 0x51 => s.setIrq { s.irq with enable := v &&& irqSources }
  | _ => s

/-! ### The rows -/

/-- REQ_SUBMIT (R113); the value written is ignored. -/
def execReqSubmit (b : Bus) (_v : Reg16) (s : State) : Host.Outcome State Fault Refusal :=
  .next (s.busWrite b State.submit)

/-- CFG_MEMSIZE_WRITE (R5). -/
def execCfgMemsizeWrite (b : Bus) (v : Reg16) (s : State) : Host.Outcome State Fault Refusal :=
  .next (s.busWrite b (State.writeMemsize v))

/-- CFG_PRESCALE_WRITE (R111). -/
def execCfgPrescaleWrite (b : Bus) (v : Reg16) (s : State) : Host.Outcome State Fault Refusal :=
  .next (s.busWrite b (State.writePrescale v))

/-- CFG_WATERMARKS_WRITE (R33). -/
def execCfgWatermarksWrite (b : Bus) (v : Reg16) (s : State) : Host.Outcome State Fault Refusal :=
  .next (s.busWrite b (State.writeWatermarks v))

/-- CFG_PROTECT_WRITE (R94). -/
def execCfgProtectWrite (b : Bus) (v : Reg16) (s : State) : Host.Outcome State Fault Refusal :=
  .next (s.busWrite b (State.writeProtect v))

/-- IRQ_PENDING_WRITE (R185). -/
def execIrqPendingWrite (b : Bus) (v : Reg16) (s : State) : Host.Outcome State Fault Refusal :=
  .next (s.busWrite b (State.writeIrqPending v))

/-- REGISTER_WRITE (R189). -/
def execRegisterWrite (b : Bus) (off : BitVec 7) (v : Reg16) (s : State) : Host.Outcome State Fault Refusal :=
  .next (s.busWrite b (State.regWrite off v))

end Sys2Proof.Machine
end

