-- ==== Sys2Proof/Machine/Reset.lean ====
section
/-! DEFINITION. The RESET pin and the disturbance of a stored word (R7, R8, R16, R198, R199). -/

namespace Sys2Proof.Machine

/-- The word of an access that device reset cuts off: in WRITING or PAIRED_WRITE either as before or the new data, free
(R16, log 7); in every other state unchanged. -/
def State.cutOff (s : State) : State :=
  match s.aif.state, s.aif.access with
  | .writing, some a | .pairedWrite, some a =>
    if Config.cutWriteStored s.own.freeCount then s.bumpFree.storeWord a.addr (a.writeData.getD 0#32) else s.bumpFree
  | _, _ => s

/-- Every block at its defaults, with RESET asserted; the array, the queue of commands and the count of free values are
kept (R198, R11). -/
def State.deviceReset (s : State) : State :=
  ((((State.reset).setReset true).setArray s.array).setPending s.pending).setOwn
    { freeCount := s.own.freeCount, backToIdle := false }

/-- RESET is asserted: the access in flight is abandoned and every block takes its defaults; a second assertion has no
effect (R198). -/
def State.assertReset (s : State) : State := s.outside fun t => t.cutOff.deviceReset

/-- The stored bits of a word at the set positions of `flips` change (R7, R8). -/
def State.disturb (s : State) (a : Addr) (flips : Bits39) : State :=
  let w := s.wordAt a
  s.setArray (s.array.put a.toNat { w with flips := w.flips ^^^ flips })

/-! ### The rows -/

/-- RESET_ASSERT (R198). -/
def execResetAssert (s : State) : Host.Outcome State Fault Refusal := .next s.assertReset

/-- RESET_RELEASE (R199). -/
def execResetRelease (s : State) : Host.Outcome State Fault Refusal := .next (s.setReset false)

/-- ARRAY_DISTURBANCE (R7): an event of the array, which the part does not see. -/
def execArrayDisturbance (a : Addr) (flips : Bits39) (s : State) : Host.Outcome State Fault Refusal :=
  .next (s.disturb a flips)

end Sys2Proof.Machine
end

