-- ==== Sys2Proof/Machine/Timebase.lean ====
section
/-! DEFINITION. The timebase and the timers that count its ticks (R110, R152, R160). -/

namespace Sys2Proof.Machine

/-- A tick at a stream port: the beat timer, while it runs, is incremented and compared with its timeout (R152). -/
def State.tickPort (s : State) (p : SpId) : State :=
  if s.timerRuns p then
    let n := (s.sp p).timer + 1
    s.setSp p { s.sp p with timer := n, expiryDue := (s.sp p).beatTimeout.toNat ≤ n }
  else s

/-- A tick at the scrub engine: in PATROL_WAIT the interval count is incremented and compared with SCR_INTERVAL
(R160). -/
def State.tickPatrol (s : State) : State :=
  if s.sce.state = .patrolWait then
    let n := s.sce.intervalCount + 1
    s.setSce { s.sce with intervalCount := n, intervalDue := s.sce.regInterval.toNat ≤ n }
  else s

/-- A tick is completed: the prescale count returns to 0 and every running timer counts it (R110). -/
def State.completeTick (s : State) : State :=
  (((s.setCtl { s.ctl with prescaleCount := 0 }).tickPort .sp0).tickPort .sp1).tickPatrol

/-- The prescale count stands at its last value, CFG_PRESCALE - 1, so that the next REFCLK period completes a tick
(R110). -/
def State.lastPeriod (s : State) : Bool := s.ctl.prescaleCount + 1 == s.cfg.prescale.toNat

/-- A REFCLK period: the count advances, or the tick is completed (R110). -/
def State.refclk (s : State) : State :=
  if s.lastPeriod then s.completeTick else s.setCtl { s.ctl with prescaleCount := s.ctl.prescaleCount + 1 }

/-! ### The rows -/

/-- TICK (R110): the REFCLK period that completes a tick; the count not being at its last value, there is none
(logs 12, 20). -/
def execTick (s : State) : Host.Outcome State Fault Refusal :=
  .next (s.outside fun t => if t.lastPeriod then t.completeTick else t)

/-- REFCLK_PERIOD (R110). -/
def execRefclkPeriod (s : State) : Host.Outcome State Fault Refusal := .next (s.outside State.refclk)

/-- BEAT_TIMER_EXPIRY (R153). -/
def execBeatTimerExpiry (p : SpId) (s : State) : Host.Outcome State Fault Refusal :=
  .next (s.internal (.beatExpiry p))

/-- INTERVAL_EXPIRY (R160). -/
def execIntervalExpiry (s : State) : Host.Outcome State Fault Refusal := .next (s.internal .intervalExpiry)

end Sys2Proof.Machine
end

