-- ==== Sys2Proof/Machine/Links.lean ====
section
/-! DEFINITION. The frames that arrive on a Stream Link (R125, R127, R138, R154, R195). A frame is taken by its own type
field (log 19); while RESET is asserted it is discarded (R198), and one that began before the release of RESET is not
taken (R199). -/

namespace Sys2Proof.Machine

/-- A frame that arrives whole after the release of RESET is taken in the state its arrival begins in; another changes
nothing (R198, R199). -/
def State.frameTaken (s : State) (p : SpId) (f : Arrival) (start : State) : State :=
  if s.resetAsserted || !f.whole then s else start.arrive p f.frame

/-- HEADER (R138). -/
def execHeader (p : SpId) (f : Arrival) (s : State) : Host.Outcome State Fault Refusal :=
  .next (s.frameTaken p f s.eventStart)

/-- WRITE_BEAT (R127); one that reaches the part together with the release of held requests is taken before it (R64,
log 18). -/
def execWriteBeat (p : SpId) (f : Arrival) (together : Bool) (s : State) : Host.Outcome State Fault Refusal :=
  .next (s.frameTaken p f (if together then s.eventTogether else s.eventStart))

/-- ABORT (R154, R155); one that reaches the part together with a grant is taken before it (R82, log 18). -/
def execAbort (p : SpId) (f : AbortArrival) (s : State) : Host.Outcome State Fault Refusal :=
  .next (s.frameTaken p f.toArrival (s.eventStartBy f.together))

/-- DISCARDED_FRAME (R195). -/
def execDiscardedFrame (p : SpId) (f : Arrival) (s : State) : Host.Outcome State Fault Refusal :=
  .next (s.frameTaken p f s.eventStart)

end Sys2Proof.Machine
end

