-- ==== Sys2Proof/Machine/Internal.lean ====
section
/-! DEFINITION. The rows the part itself brings about: each happens when it is due (`State.due`), and a row that is not
due changes nothing (log 20). -/

namespace Sys2Proof.Machine

/-- PRQ_DISPATCH (R115). -/
def execPrqDispatch (s : State) : Host.Outcome State Fault Refusal := .next (s.internal .prqDispatch)

/-- SRQ_DISPATCH (R142). -/
def execSrqDispatch (p : SpId) (s : State) : Host.Outcome State Fault Refusal := .next (s.internal (.srqDispatch p))

/-- ARRAY_GRANT (R76). -/
def execArrayGrant (s : State) : Host.Outcome State Fault Refusal := .next (s.internal .grant)

/-- DRAIN_START (R35). -/
def execDrainStart (s : State) : Host.Outcome State Fault Refusal := .next (s.internal .drainStart)

/-- RESOLVE_WRITE_REQUEST (R44). -/
def execResolveWriteRequest (s : State) : Host.Outcome State Fault Refusal := .next (s.internal .resolveRequest)

/-- LOCK_HOLD_RELEASE (R64). -/
def execLockHoldRelease (q : Port) (s : State) : Host.Outcome State Fault Refusal :=
  .next (s.internal (.lockRelease q))

/-- FENCE_HOLD_RELEASE (R168). -/
def execFenceHoldRelease (q : Port) (s : State) : Host.Outcome State Fault Refusal :=
  .next (s.internal (.fenceRelease q))

/-- WAITING_WRITER_ALLOCATION (R26). -/
def execWaitingWriterAllocation (s : State) : Host.Outcome State Fault Refusal := .next (s.internal .waiterAlloc)

/-- FORCED_DRAIN_SIGNAL (R59). -/
def execForcedDrainSignal (s : State) : Host.Outcome State Fault Refusal := .next (s.internal .forcedSignal)

/-- FLUSH_COMPLETION (R46). -/
def execFlushCompletion (s : State) : Host.Outcome State Fault Refusal := .next (s.internal .flushDone)

/-- QUIESCE_COMPLETE (R105). -/
def execQuiesceComplete (s : State) : Host.Outcome State Fault Refusal := .next (s.internal .quiesce)

end Sys2Proof.Machine
end

