-- ==== Sys2Proof/Machine/Completions.lean ====
section
/-! DEFINITION. The completions of an array access (R13 to R15) and what the owner does at each. A completion of an
access that is not in flight does not happen (log 20). -/

namespace Sys2Proof.Machine

/-! ### The processor port (R117, R118) -/

/-- The read of the executing READ completes: counts and record by the array outcome, the record by the delivered one
(R117, R118). -/
def State.ppReadDone (s : State) (a : Access) : State :=
  let read := s.readArray a.addr
  match s.ppt.exec with
  | none => s.endAccess
  | some x =>
    let delivered := s.mbOverlay a.addr x.req.lanes read
    ((s.reportRead read.2 .pp a.addr .read (some x.req.tag)).endAccess).ppComplete delivered.2.cplStatus
      (readResult x.req.size x.req.addr delivered.1)

/-! ### The stream ports (R133, R144) -/

/-- A discarded read completes: its records and counts are made, no beat is sent, the flag clears, and a burst that
waited for this makes its request (R133). -/
def State.discardedReadDone (s : State) (p : SpId) (a : Access) (tag : Tag) : State :=
  let t := (s.reportRead (s.readArray a.addr).2 (portSource p.port) a.addr .read (some tag)).endAccess
  let t := t.setSp p { t.sp p with discardedRead := none }
  match (t.sp p).burst with
  | some b =>
    if b.phase = .readWait ∧ (t.arb.slots.get (portRequester p.port)).isNone then
      t.request (portRequester p.port) .read b.word
    else t
  | none => t

/-- A read word's array read completes (R144). -/
def State.streamReadDone (s : State) (p : SpId) (a : Access) : State :=
  match (s.sp p).discardedRead with
  | some tag => s.discardedReadDone p a tag
  | none =>
    match (s.sp p).burst with
    | none => s.endAccess
    | some b =>
      let read := s.readArray a.addr
      let delivered := s.mbOverlay a.addr 15#4 read
      ((s.reportRead read.2 (portSource p.port) a.addr .read (some b.hdr.tag)).endAccess).readDelivered p
        delivered.1 delivered.2

/-! ### The drain engine (R37 to R39) -/

/-- A drained entry with its missing lanes filled from the read (R37). -/
def Entry.filled (x : Entry) (d : Word) : Entry :=
  { x with state := .pending, data := overlayLanes d x.data x.mask, mask := 15#4 }

/-- An entry whose merge could not be completed (R38). -/
def Entry.faulted (x : Entry) : Entry :=
  { x with state := .faulted, selected := false, forced := false, flushBound := false }

/-- The record of a drain read, when a lane was taken from the array (R37, R38). -/
def State.drainRecord (s : State) (e : Fin 8) (x : Entry) (o : DecodeOutcome) : State :=
  match o with
  | .clean => s
  | .corrected _ => s.recordOutcome o (ErrorRecord.base .corrected .drain x.addr)
  | .uncorrectable =>
    s.logRecord { ErrorRecord.base .mergeFault .drain x.addr with entry := some e, mask := some x.mask }

/-- The drain engine asks for the WRITE of entry `e`, now full (R37). -/
def State.drainWrite (s : State) (e : Fin 8) (x : Entry) : State :=
  (s.setMb { s.mb.setEntry e x with drain := { phase := .writeWait, entry := some e } }).request .dr .write x.addr

/-- A drain read completes for entry `e` (R37, R38). -/
def State.drainReadOf (s : State) (e : Fin 8) (read : Word × DecodeOutcome) : State :=
  let x := s.mb.entry e
  let t := (s.countOutcome read.2).endAccess
  if x.mask = 15#4 then t.drainWrite e { x with state := .pending }
  else
    let t := t.drainRecord e x read.2
    if read.2 = .uncorrectable then
      t.setMb
        { (t.mb.setEntry e x.faulted).drainIdle with
          faultedCount := if x.flushBound then t.mb.faultedCount + 1 else t.mb.faultedCount }
    else t.drainWrite e (x.filled read.1)

/-- The drain engine's read completes. -/
def State.drainReadDone (s : State) (a : Access) : State :=
  match s.mb.drain.entry with
  | none => s.endAccess
  | some e => s.drainReadOf e (s.readArray a.addr)

/-- An entry that was reopened returns to PENDING at its write's completion (R39). -/
def Entry.reopen (x : Entry) : Entry :=
  { x with
    state := .pending
    mask := 15#4
    selected := false
    reopened := false
    flushBound := x.flushBound && x.flushCarry
    flushCarry := false }

/-- Entry `e` leaves WRITING (R39). -/
def MergeBuffer.written (mb : MergeBuffer) (e : Fin 8) : MergeBuffer :=
  if (mb.entry e).reopened then (mb.setEntry e (mb.entry e).reopen).drainIdle else (mb.release e).drainIdle

/-- The write of a drain or of a resolve completes (R14, R39, R44). -/
def State.drainWriteDone (s : State) (a : Access) : State :=
  let t := (s.storeWord a.addr (a.writeData.getD 0#32)).endAccess
  match t.mb.drain.entry with
  | none => t
  | some e => t.setMb (t.mb.written e)

/-! ### The atomic engine (R61 to R63, R66) -/

/-- The lock entry whose paired access is in flight. -/
def State.lockInArray (s : State) : Option LockEntry := s.wlt.find? (·.state == .inArray)

/-- The paired read of lock entry `e` completes (R61, R62, R66). -/
def State.atomicReadOf (s : State) (a : Access) (e : LockEntry) : State :=
  let read := s.readArray a.addr
  let t := s.reportRead read.2 (portSource e.port) a.addr .atomic (some e.tag)
  if read.2 = .uncorrectable then
    t.endAccess.removeLock e (some { status := .uncorrectable, old := read.1, outcome := read.2 })
  else
    match e.op.newValue e.opA e.opB read.1 with
    | some d => t.pairedWrite a read d
    | none => t.endAccess.removeLock e (some { status := .casFailed, old := read.1, outcome := read.2 })

/-- The atomic engine's paired read completes. -/
def State.atomicReadDone (s : State) (a : Access) : State :=
  match s.lockInArray with
  | none => s.endAccess
  | some e => s.atomicReadOf a e

/-- The atomic engine's paired write completes: the entry is removed with DONE (R63). -/
def State.atomicWriteDone (s : State) (a : Access) : State :=
  let t := (s.storeWord a.addr (a.writeData.getD 0#32)).endAccess
  match t.lockInArray with
  | none => t
  | some e =>
    t.removeLock e (some { status := .done, old := a.readData.getD 0#32, outcome := a.outcome.getD .clean })

/-! ### The patrol (R162, R163) -/

/-- A patrol access ends: the pointer advances, a pass is counted at the top, and the engine waits again or stops
(R163). -/
def State.patrolEnd (s : State) : State :=
  let top := s.sce.patrolPtr.toNat + 1 = s.cfg.size
  let t := s.setSce
    { s.sce with
      state := if s.sce.stopPending then .idle else .patrolWait
      stopPending := false
      intervalCount := if s.sce.stopPending then s.sce.intervalCount else 0
      intervalDue := false
      patrolPtr := if top then 0#20 else s.sce.patrolPtr + 1
      passes := if top then s.sce.passes + 1 else s.sce.passes }
  if top then t.setIrq { t.irq with scrubPass := true } else t

/-- The patrol's paired read completes (R162). -/
def State.patrolReadDone (s : State) (a : Access) : State :=
  let read := s.readArray a.addr
  let t := s.reportRead read.2 .scrub a.addr .patrol none
  match read.2 with
  | .corrected _ => if s.mb.faultedFor a.addr then t.endAccess.patrolEnd else t.pairedWrite a read read.1
  | .clean | .uncorrectable => t.endAccess.patrolEnd

/-- The patrol's repair write completes (R163). -/
def State.patrolWriteDone (s : State) (a : Access) : State :=
  (s.storeWord a.addr (a.writeData.getD 0#32)).endAccess.patrolEnd

/-! ### The fill (R167) -/

/-- The engine acts by the word a fill has just written (R167). -/
def State.fillNext (s : State) : State :=
  if s.sce.fillPtr = s.sce.fillLast then
    (s.setSce { s.sce with state := .idle, stopPending := false, fillResult := .done }).setIrq
      { s.irq with fillDone := true }
  else if s.sce.stopPending then
    s.setSce { s.sce with state := .idle, stopPending := false, fillResult := .stopped, fillPtr := s.sce.fillPtr + 1 }
  else
    (s.setSce { s.sce with state := .fillRequest, fillPtr := s.sce.fillPtr + 1 }).request .sc .write
      (s.sce.fillPtr + 1)

/-- A fill write completes (R167). -/
def State.fillWriteDone (s : State) (a : Access) : State :=
  (s.storeWord a.addr (a.writeData.getD 0#32)).endAccess.fillNext

/-! ### The rows -/

/-- The access completes when it is in flight, in the state and for the requester named. -/
def State.complete (s : State) (st : AifState) (r : Requester) (f : State → Access → State) : State :=
  s.outside fun t =>
    match t.inFlight st r with
    | none => t
    | some a => f t a

/-- PP_READ_COMPLETION (R117). -/
def execPpReadCompletion (s : State) : Host.Outcome State Fault Refusal :=
  .next (s.complete .reading .pp State.ppReadDone)

/-- STREAM_READ_COMPLETION, of the stream port whose read is in flight (R144). -/
def execStreamReadCompletion (s : State) : Host.Outcome State Fault Refusal :=
  .next
    (s.outside fun t =>
      match t.inFlight .reading .sp0, t.inFlight .reading .sp1 with
      | some a, _ => t.streamReadDone .sp0 a
      | none, some a => t.streamReadDone .sp1 a
      | none, none => t)

/-- DRAIN_READ_COMPLETION (R37). -/
def execDrainReadCompletion (s : State) : Host.Outcome State Fault Refusal :=
  .next (s.complete .reading .dr State.drainReadDone)

/-- DRAIN_WRITE_COMPLETION, of a drain's or a resolve's write (R39). -/
def execDrainWriteCompletion (s : State) : Host.Outcome State Fault Refusal :=
  .next (s.complete .writing .dr State.drainWriteDone)

/-- ATOMIC_READ_COMPLETION (R61). -/
def execAtomicReadCompletion (s : State) : Host.Outcome State Fault Refusal :=
  .next (s.complete .pairedRead .ae State.atomicReadDone)

/-- ATOMIC_WRITE_COMPLETION (R63). -/
def execAtomicWriteCompletion (s : State) : Host.Outcome State Fault Refusal :=
  .next (s.complete .pairedWrite .ae State.atomicWriteDone)

/-- PATROL_READ_COMPLETION (R162). -/
def execPatrolReadCompletion (s : State) : Host.Outcome State Fault Refusal :=
  .next (s.complete .pairedRead .sc State.patrolReadDone)

/-- PATROL_WRITE_COMPLETION (R163). -/
def execPatrolWriteCompletion (s : State) : Host.Outcome State Fault Refusal :=
  .next (s.complete .pairedWrite .sc State.patrolWriteDone)

/-- FILL_WRITE_COMPLETION (R167). -/
def execFillWriteCompletion (s : State) : Host.Outcome State Fault Refusal :=
  .next (s.complete .writing .sc State.fillWriteDone)

end Sys2Proof.Machine
end

