-- ==== Sys2Proof/Machine/Dispatch.lean ====
section
/-! DEFINITION. The meaning of each command: one arm per row of the opcode table. -/

namespace Sys2Proof.Machine

/-- The command's effect on everything but the queue. -/
def exec (i : Instr) (s : State) : Host.Outcome State Fault Refusal :=
  match i with
  | .resetAssert => Sys2Proof.Machine.execResetAssert s
  | .resetRelease => Sys2Proof.Machine.execResetRelease s
  | .tick => Sys2Proof.Machine.execTick s
  | .beatTimerExpiry p => Sys2Proof.Machine.execBeatTimerExpiry p s
  | .intervalExpiry => Sys2Proof.Machine.execIntervalExpiry s
  | .ctrlStatusRead b => Sys2Proof.Machine.execCtrlStatusRead b s
  | .cplPop b => Sys2Proof.Machine.execCplPop b s
  | .reqSubmit b v => Sys2Proof.Machine.execReqSubmit b v s
  | .cfgMemsizeWrite b v => Sys2Proof.Machine.execCfgMemsizeWrite b v s
  | .cfgPrescaleWrite b v => Sys2Proof.Machine.execCfgPrescaleWrite b v s
  | .cfgWatermarksWrite b v => Sys2Proof.Machine.execCfgWatermarksWrite b v s
  | .cfgProtectWrite b v => Sys2Proof.Machine.execCfgProtectWrite b v s
  | .irqPendingWrite b v => Sys2Proof.Machine.execIrqPendingWrite b v s
  | .registerWrite b off v => Sys2Proof.Machine.execRegisterWrite b off v s
  | .run b arg => Sys2Proof.Machine.execRun b arg s
  | .halt b arg => Sys2Proof.Machine.execHalt b arg s
  | .portEnable b arg => Sys2Proof.Machine.execPortEnable b arg s
  | .portDisable b arg => Sys2Proof.Machine.execPortDisable b arg s
  | .portReset b arg => Sys2Proof.Machine.execPortReset b arg s
  | .portResume b arg => Sys2Proof.Machine.execPortResume b arg s
  | .loadRegion b arg => Sys2Proof.Machine.execLoadRegion b arg s
  | .viewRegion b arg => Sys2Proof.Machine.execViewRegion b arg s
  | .viewEntry b arg => Sys2Proof.Machine.execViewEntry b arg s
  | .resolveDiscard b arg => Sys2Proof.Machine.execResolveDiscard b arg s
  | .resolveForce b arg => Sys2Proof.Machine.execResolveForce b arg s
  | .scrubStart b arg => Sys2Proof.Machine.execScrubStart b arg s
  | .scrubStop b arg => Sys2Proof.Machine.execScrubStop b arg s
  | .fillStart b arg => Sys2Proof.Machine.execFillStart b arg s
  | .fillStop b arg => Sys2Proof.Machine.execFillStop b arg s
  | .logPop b arg => Sys2Proof.Machine.execLogPop b arg s
  | .logClearOverflow b arg => Sys2Proof.Machine.execLogClearOverflow b arg s
  | .clearCounts b arg => Sys2Proof.Machine.execClearCounts b arg s
  | .unknownCommand b code arg => Sys2Proof.Machine.execUnknownCommand b code arg s
  | .header p f => Sys2Proof.Machine.execHeader p f s
  | .writeBeat p f together => Sys2Proof.Machine.execWriteBeat p f together s
  | .abort p f => Sys2Proof.Machine.execAbort p f s
  | .discardedFrame p f => Sys2Proof.Machine.execDiscardedFrame p f s
  | .prqDispatch => Sys2Proof.Machine.execPrqDispatch s
  | .srqDispatch p => Sys2Proof.Machine.execSrqDispatch p s
  | .arrayGrant => Sys2Proof.Machine.execArrayGrant s
  | .drainStart => Sys2Proof.Machine.execDrainStart s
  | .resolveWriteRequest => Sys2Proof.Machine.execResolveWriteRequest s
  | .ppReadCompletion => Sys2Proof.Machine.execPpReadCompletion s
  | .streamReadCompletion => Sys2Proof.Machine.execStreamReadCompletion s
  | .drainReadCompletion => Sys2Proof.Machine.execDrainReadCompletion s
  | .drainWriteCompletion => Sys2Proof.Machine.execDrainWriteCompletion s
  | .atomicReadCompletion => Sys2Proof.Machine.execAtomicReadCompletion s
  | .atomicWriteCompletion => Sys2Proof.Machine.execAtomicWriteCompletion s
  | .patrolReadCompletion => Sys2Proof.Machine.execPatrolReadCompletion s
  | .patrolWriteCompletion => Sys2Proof.Machine.execPatrolWriteCompletion s
  | .fillWriteCompletion => Sys2Proof.Machine.execFillWriteCompletion s
  | .lockHoldRelease q => Sys2Proof.Machine.execLockHoldRelease q s
  | .fenceHoldRelease q => Sys2Proof.Machine.execFenceHoldRelease q s
  | .waitingWriterAllocation => Sys2Proof.Machine.execWaitingWriterAllocation s
  | .forcedDrainSignal => Sys2Proof.Machine.execForcedDrainSignal s
  | .flushCompletion => Sys2Proof.Machine.execFlushCompletion s
  | .quiesceComplete => Sys2Proof.Machine.execQuiesceComplete s
  | .arrayDisturbance a flips => Sys2Proof.Machine.execArrayDisturbance a flips s
  | .refclkPeriod => Sys2Proof.Machine.execRefclkPeriod s

end Sys2Proof.Machine
end

