-- ==== Sys2Proof/Machine/Step.lean ====
section
/-! DEFINITION. One step of the block: the command at the front of the queue, or, on an empty queue, one of the events
the part itself brings about. -/

namespace Sys2Proof.Machine

/-- One step: the front command of the queue takes effect on the state with the queue's rest. On an empty queue one due
event of the part's own is taken, and with none due the block idles (log 2). -/
def step (s : State) : Host.Outcome State Fault Refusal :=
  match s.pending with
  | c :: rest => exec c (s.setPending rest)
  | [] => .next (s.settleOne fun _ _ => true)

/-- The state with the command that a word spells at the front of its queue; unchanged where the word spells none, as
no word does (log 21). -/
def State.withFetchWord (s : State) (nbits w : Nat) : State :=
  match decodeTableWord nbits w with
  | none => s
  | some c => s.setPending (c :: s.pending)

end Sys2Proof.Machine
end

