-- ==== Sys2Proof/Safety.lean ====
section
/-! DEFINITION. What the part keeps at every step: the invariants the statements speak of, and the frame relation that
says which blocks an event leaves alone. -/

namespace Sys2Proof.Machine

/-! ### Frames -/

/-- The blocks of the state, as a frame names them. -/
inductive Block where
  | reset | array | aif | mb | wlt | arb | acu | ctl | cfg | ppt | sp0 | sp1 | sce | elog | irq | own | pending
  deriving DecidableEq, Repr

/-- One block is the same in two states. -/
def State.sameBlock (s t : State) : Block → Prop
  | .reset => t.resetAsserted = s.resetAsserted
  | .array => t.array = s.array
  | .aif => t.aif = s.aif
  | .mb => t.mb = s.mb
  | .wlt => t.wlt = s.wlt
  | .arb => t.arb = s.arb
  | .acu => t.acu = s.acu
  | .ctl => t.ctl = s.ctl
  | .cfg => t.cfg = s.cfg
  | .ppt => t.ppt = s.ppt
  | .sp0 => t.sp0 = s.sp0
  | .sp1 => t.sp1 = s.sp1
  | .sce => t.sce = s.sce
  | .elog => t.elog = s.elog
  | .irq => t.irq = s.irq
  | .own => t.own = s.own
  | .pending => t.pending = s.pending

/-- Every block but those listed is the same in `t` as in `s`. -/
def State.sameBut (s t : State) (bs : List Block) : Prop := ∀ b, b ∉ bs → s.sameBlock t b

/-- The block of a stream port. -/
def spBlock : SpId → Block
  | .sp0 => .sp0
  | .sp1 => .sp1

/-! ### What the statements speak of -/

/-- A bus access at its taking event, outside reset: chip select is asserted, the other strobe is not, the read strobe was
not asserted while the write strobe was, and the strobe was asserted after the latest release of RESET
(R188, R198, R199). -/
def Taken (s : State) (b : Bus) : Prop :=
  s.resetAsserted = false ∧ b.chipSelect = true ∧ b.otherStrobe = false ∧ b.crossed = false ∧ b.sinceRelease = true

/-- The part is out of reset, and no waiting writer can be served, which would come first (R26, log 3). -/
def Ready (s : State) : Prop := s.resetAsserted = false ∧ s.nextWaiter = none

/-- An argument names a stream port: 0 SP0, 1 SP1 (R131 to R134). -/
def NamesPort (arg : BitVec 8) (p : SpId) : Prop := (arg = 0#8 ∧ p = .sp0) ∨ (arg = 1#8 ∧ p = .sp1)

/-- The state with COMMAND_RESULT replaced: the result and the code written (R107, R194). -/
def State.answered (t : State) (r : CmdResult) (code : BitVec 8) : State :=
  { t with ctl := { t.ctl with cmdResult := r, cmdCode := code } }

/-- CREDIT 1, which follows an END of a port that is ENABLED or SUSPENDED, and of no other (R137). -/
def creditMsgs : PortState → List LinkMsg
  | .enabled | .suspended => [.credit 1]
  | .disabled | .disabling => []

/-- A stream port after the END of its executing burst: END and CREDIT 1 are sent, the header leaves the SRQ, the credit
comes back, and a DISABLING port is DISABLED (R132, R137, R141). -/
def StreamPort.ended (sp : StreamPort) (tag : Tag) (st : EndStatus) (done : Nat) : StreamPort :=
  { sp with
    outbound := sp.outbound ++ [.endMsg tag st done] ++ creditMsgs sp.state
    srq := sp.srq.tail
    burst := none
    credits := match sp.state with
      | .enabled | .suspended => sp.credits + 1
      | .disabled | .disabling => sp.credits
    state := match sp.state with
      | .enabled => .enabled
      | .suspended => .suspended
      | .disabled | .disabling => .disabled
    expiryDue := false }

/-- A stream port after an event of the table of R135: SUSPENDED with its cause, but a DISABLED or DISABLING port stays as it is
(R135). -/
def StreamPort.stopped (sp : StreamPort) (c : SuspendCause) : StreamPort :=
  match sp.state with
  | .enabled | .suspended => { sp with state := .suspended, cause := c }
  | .disabled | .disabling => sp

/-- The six quiesce conditions (R105). -/
def QuiesceHolds (s : State) : Prop :=
  s.ppt.exec = none ∧ (s.sp0.burst = none ∧ s.sp1.burst = none) ∧ s.wlt = [] ∧
  (∀ e, (s.mb.entry e).state = .free ∨ (s.mb.entry e).state = .faulted) ∧ s.aif.state = .idle ∧ s.sce.state = .idle

/-- The arbiter with the scrub engine's request withdrawn (R80, R82). -/
def Arbiter.scrubWithdrawn (a : Arbiter) : Arbiter := { slots := { a.slots with sc := none }, pointer := a.pointer, bypass := 0 }

/-- The first arrival test a header fails, in the order of R138, given the credit count; a cause not listed there is no
arrival cause. -/
def HeaderFails (credits : Nat) (f : Frame) : ProtocolCause → Prop
  | .credit => credits = 0
  | .parity => credits ≠ 0 ∧ headerParityOdd f = false
  | .opcode => credits ≠ 0 ∧ headerParityOdd f = true ∧ headerOpCode f = 7
  | .length =>
    credits ≠ 0 ∧ headerParityOdd f = true ∧ 2 ≤ headerOpCode f ∧ headerOpCode f ≤ 6 ∧ headerLength f ≠ 1
  | .timeout => False

/-- A frame joins those that wait on the link of port `p` (R125): nothing else changes, but that a burst in OPERAND_WAIT
whose last operand is the first of them goes to OPERAND_BLOCKED (R150). -/
def JoinsLink (u t : State) (p : SpId) (f : Frame) : Prop :=
  u.sameBut t [spBlock p] ∧
  t.sp p = { u.sp p with inbound := (u.sp p).inbound ++ [f], burst := (t.sp p).burst } ∧
  ((t.sp p).burst = (u.sp p).burst ∨
   ∃ b, (u.sp p).burst = some b ∧ b.phase = .operandWait ∧
     (t.sp p).burst = some { b with phase := .operandBlocked })

/-- The atomic engine's slot after the lock table has changed: while an entry is in WAIT_GRANT the request stands, and is
made when neither a request nor an access of the engine was there; with none in WAIT_GRANT it is withdrawn. The rest of
the arbiter is unchanged (R60, R82). -/
def AeFollows (s t : State) : Prop :=
  t.arb = { s.arb with slots := { s.arb.slots with ae := t.arb.slots.ae } } ∧
  ((∃ e ∈ t.wlt, e.state = .waitGrant) →
    (s.arb.slots.ae = none → (∀ a, s.aif.access = some a → a.requester ≠ .ae) →
      t.arb.slots.ae = some { kind := .paired, addr := none }) ∧
    (s.arb.slots.ae ≠ none ∨ (∃ a, s.aif.access = some a ∧ a.requester = .ae) → t.arb.slots.ae = s.arb.slots.ae)) ∧
  ((∀ e ∈ t.wlt, e.state ≠ .waitGrant) → t.arb.slots.ae = none)

/-- What the removal of lock entry `e` does to the table, the buffer's forced marks and the arbiter. Younger entries move up
in order; the oldest left for the word, when it was waiting its turn, asks the buffer and is in WAIT_GRANT, or in WAIT_DRAIN
with the word's entry forced (R55, R58, R60, R63, R69). The answer FAULTED is not said here. -/
def EntryRemoved (s t : State) (e : LockEntry) : Prop :=
  let left := s.wlt.filter (·.port != e.port)
  t.hasLock e.port = false ∧ AeFollows s t ∧
  ((∀ x ∈ left, x.addr ≠ e.addr) → t.wlt = left ∧ t.mb = s.mb) ∧
  (∀ older x younger, left = older ++ x :: younger → (∀ y ∈ older, y.addr ≠ e.addr) → x.addr = e.addr →
    (x.state ≠ .waitTurn → t.wlt = left ∧ t.mb = s.mb) ∧
    (x.state = .waitTurn → s.mbAsk e.addr = .none →
      t.wlt = left.map (fun y => if y.port = x.port then { y with state := .waitGrant } else y) ∧ t.mb = s.mb) ∧
    (∀ i, x.state = .waitTurn → s.mbAsk e.addr = .forced i →
      t.wlt = left.map (fun y => if y.port = x.port then { y with state := .waitDrain } else y) ∧
      t.mb = s.mb.setEntry i { s.mb.entry i with forced := true }))

/-- The lock entry of port `p` leaves the table, or, in the array, is marked cancelled (R69, R70): what a removal sets in
motion reaches the lock table, the buffer's forced marks, the arbiter's AE slot, a processor atomic whose hold ends, and,
when the next entry for the word finds a FAULTED entry, that entry's port. -/
def LockCancelled (u t : State) (p : SpId) : Prop :=
  (u.wlt.find? (·.port == p.port) = none →
    t.wlt = u.wlt ∧ t.mb = u.mb ∧ t.arb = u.arb ∧ t.ppt = u.ppt ∧ ∀ q, q ≠ p → t.sp q = u.sp q) ∧
  ∀ e, u.wlt.find? (·.port == p.port) = some e →
    (e.state = .inArray →
      t.wlt = u.wlt.map (fun y => if y.port = p.port then { y with cancelled := true } else y) ∧
      t.mb = u.mb ∧ t.arb = u.arb ∧ t.ppt = u.ppt ∧ ∀ q, q ≠ p → t.sp q = u.sp q) ∧
    (e.state ≠ .inArray →
      let left := u.wlt.filter (·.port != p.port)
      EntryRemoved u t e ∧
      ((∀ x ∈ left, x.addr ≠ e.addr) →
        t.ppt = (u.releaseHeldAtomic e.addr).ppt ∧ ∀ q, q ≠ p → t.sp q = u.sp q) ∧
      (∀ older x younger, left = older ++ x :: younger → (∀ y ∈ older, y.addr ≠ e.addr) → x.addr = e.addr →
        (x.state ≠ .waitTurn ∨ u.mbAsk e.addr ≠ .faulted → t.ppt = u.ppt ∧ ∀ q, q ≠ p → t.sp q = u.sp q) ∧
        (x.state = .waitTurn → u.mbAsk e.addr = .faulted →
          let v := { u with wlt := left }.removeLock x
            (some { status := .entryFaulted, old := 0#32, outcome := .clean })
          t.wlt = v.wlt ∧ t.mb = v.mb ∧ t.arb = v.arb ∧ t.ppt = v.ppt ∧ ∀ q, q ≠ p → t.sp q = v.sp q)))

/-- What the taking of a HEADER does: END ABORTED in DISABLED and DISABLING; in ENABLED and SUSPENDED the refusal by the first
failing test, or a place in the queue against a credit (R137 to R140). -/
def HeaderTaken (u t : State) (p : SpId) (f : Frame) : Prop :=
  let sp := u.sp p
  (sp.state = .disabled ∨ sp.state = .disabling →
    t = u.setSp p { sp with outbound := sp.outbound ++ [.endMsg (headerTag f) .aborted 0] }) ∧
  (sp.state = .enabled ∨ sp.state = .suspended →
    (∀ c, HeaderFails sp.credits f c →
      ∃ access, u.sameBut t [spBlock p, .elog] ∧
        access =
          (if headerOpCode f = 1 then AccessType.write
           else if 2 ≤ headerOpCode f ∧ headerOpCode f ≤ 6 then AccessType.atomic else AccessType.read) ∧
        t.sp p =
          { sp with
            state := .suspended
            cause := .protocol
            outbound := sp.outbound ++ ([.endMsg (headerTag f) .protocol 0] ++ if c = .credit then [] else [.credit 1]) } ∧
        t.elog =
          (u.logRecord
            { ErrorRecord.base .protocol (portSource p.port) (headerAddr f) with
              access := some access, tag := some (headerTag f), cause := some c }).elog) ∧
    ((∀ c, ¬ HeaderFails sp.credits f c) →
      ∃ h : Header, t = u.setSp p { sp with credits := sp.credits - 1, srq := sp.srq ++ [h] } ∧
        h.op.code = headerOpCode f ∧ h.length = headerLength f ∧ h.tag = headerTag f ∧ h.addr = headerAddr f))

/-- The frame is a beat of the burst that awaits beats, and the port is not ready for it: the burst is in MERGE with beats to
come, or the frame is an atomic's last operand behind the port's own lock entry (R57, R125, R127, R146, R150). -/
def BeatWaits (u : State) (p : SpId) (f : Frame) : Prop :=
  frameType f = 2#4 ∧
  ∃ b, (u.sp p).burst = some b ∧ beatTag f = b.hdr.tag ∧
    ((b.phase = .merge ∧ b.done + 1 < b.hdr.length) ∨
     ((b.phase = .operandWait ∨ b.phase = .operandBlocked) ∧ (b.hdr.op ≠ .atomic .compareSwap ∨ b.opA ≠ none) ∧
      u.hasLock p.port = true))

/-- What the taking of a WRITE_BEAT does when the port is ready for it: it is the next data or operand beat of the burst that
awaits beats and carries its tag, or it is discarded (R57, R127, R146, R147, R150, R168). -/
def BeatTaken (u t : State) (p : SpId) (f : Frame) : Prop :=
  let sp := u.sp p
  let d := beatData f
  let m := beatMask f
  (sp.burst = none → t = u) ∧
  (∀ b, sp.burst = some b →
    (beatTag f ≠ b.hdr.tag → t = u) ∧
    (b.phase = .readHold ∨ b.phase = .readWait ∨ b.phase = .readAccess ∨ b.phase = .admitHold ∨ b.phase = .locked ∨
      (b.phase = .merge ∧ b.hdr.length ≤ b.done + 1) → t = u) ∧
    (beatTag f = b.hdr.tag →
      (b.phase = .beatWait → u.fenced b.word = true →
        t = u.setSp p { sp with burst := some { b with phase := .merge, hold := .fence, beat := some (d, m) } }) ∧
      (b.phase = .beatWait → u.fenced b.word = false →
        t =
          (u.setSp p { sp with burst := some { b with phase := .merge, hold := .none, beat := none } }).mergeIssue
            { port := p.port, addr := b.word, data := d, mask := m }) ∧
      (∀ op, b.phase = .operandWait ∨ b.phase = .operandBlocked → b.hdr.op = .atomic op →
        (op = .compareSwap ∧ b.opA = none →
          t =
            u.setSp p
              { sp with
                burst := some { b with opA := some d, phase := .operandWait, hold := .none, beat := none }
                timer := 0
                expiryDue := false }) ∧
        (op ≠ .compareSwap ∨ b.opA ≠ none → u.hasLock p.port = false →
          t =
            (u.setSp p { sp with burst := some { b with phase := .locked, hold := .none } }).createLock
              { port := p.port, tag := b.hdr.tag, addr := b.hdr.addr, op := op, opA := b.opA.getD d
                opB := if op = .compareSwap then some d else none
                state := .waitTurn, cancelled := false }))))

/-- What the taking of an ABORT does: on the executing burst with its tag by the phase, else on the oldest queued header with
its tag, else nothing (R27, R69, R70, R154, R155). -/
def AbortTaken (u t : State) (p : SpId) (f : Frame) : Prop :=
  let sp := u.sp p
  let tag := beatTag f
  (∀ b, sp.burst = some b → b.hdr.tag = tag →
    match b.phase with
    | .readWait | .readAccess => t = u.setSp p { sp with burst := some { b with aborted := true } }
    | .merge =>
      t =
        { u with
          mb := { u.mb with
            waiting := u.mb.waiting.filter (·.port != p.port)
            held := u.mb.held.filter (·.port != p.port) } }.setSp p (sp.ended tag .aborted b.done)
    | .locked =>
      t.sp p = sp.ended tag .aborted b.done ∧ LockCancelled u t p ∧
        u.sameBut t [.sp0, .sp1, .wlt, .mb, .arb, .ppt]
    | .readHold | .beatWait | .admitHold | .operandWait | .operandBlocked =>
      t = u.setSp p (sp.ended tag .aborted b.done)) ∧
  ((∀ b, sp.burst = some b → b.hdr.tag ≠ tag) →
    let first := if sp.burst.isSome then sp.srq.take 1 else []
    let queued := if sp.burst.isSome then sp.srq.drop 1 else sp.srq
    ((∀ h ∈ queued, h.tag ≠ tag) → t = u) ∧
    (∀ older h younger, queued = older ++ h :: younger → h.tag = tag → (∀ x ∈ older, x.tag ≠ tag) →
      t =
        u.setSp p
          { sp with
            srq := first ++ (older ++ younger)
            credits := if sp.state = .enabled ∨ sp.state = .suspended then sp.credits + 1 else sp.credits
            outbound := sp.outbound ++ [.endMsg tag .aborted 0] ++ creditMsgs sp.state }))

/-- What the taking of a frame does, by its type (R195). -/
def FrameTaken (u t : State) (p : SpId) (f : Frame) : Prop :=
  (frameType f = 1#4 → HeaderTaken u t p f) ∧ (frameType f = 2#4 → BeatTaken u t p f) ∧
  (frameType f = 3#4 → AbortTaken u t p f) ∧ (frameType f = 0#4 ∨ 4#4 ≤ frameType f → t = u)

/-- A read lookup: the only non-FREE entry for the word gives its data when its mask includes every needed lane; every
other case gives none (R29). -/
def LookupServes (s : State) (w : Addr) (need : LaneMask) : Prop :=
  ((∀ e, (s.mb.entry e).state = .free ∨ (s.mb.entry e).addr ≠ w) → s.mbLookup w need = none) ∧
  (∀ e, (s.mb.entry e).state ≠ .free → (s.mb.entry e).addr = w →
    (∀ f, (s.mb.entry f).state ≠ .free → (s.mb.entry f).addr = w → f = e) →
    ((s.mb.entry e).mask &&& need = need → s.mbLookup w need = some (s.mb.entry e).data) ∧
    ((s.mb.entry e).mask &&& need ≠ need → s.mbLookup w need = none))

/-- The rank of an entry in the drain engine's choice: forced, flush-bound, neither (R35). -/
def Entry.rank (x : Entry) : Nat := if x.forced then 0 else if x.flushBound then 1 else 2

/-- The state after an array access of which the word `a` was stored with fresh check bits (R7, R14, R15): the interface
is IDLE, no other word has changed. -/
def StoredAndIdle (u v : State) (a : Addr) (d : Word) : Prop :=
  v.wordAt a = .fresh d ∧ (∀ x, x ≠ a → v.wordAt x = u.wordAt x) ∧
  v.aif = { state := .idle, access := none }

/-! ### Invariants -/

/-- The array's memory is in canonical form. -/
def InvArray (s : State) : Prop := s.array.wf = true

/-- The queues keep within their sizes: PRQ 4, CQ with the executing request 8 (R114, R122), log 8 (R175). -/
def InvQueues (s : State) : Prop :=
  s.ppt.prq.length ≤ 4 ∧ s.ppt.cq.length + s.ppt.exec.isSome.toNat ≤ 8 ∧ s.elog.records.length ≤ 8

/-- One stream port: the executing header is at the head of the SRQ (R129); credits and queued headers make 4 while the
port is ENABLED or SUSPENDED; without credits only the executing header is left in DISABLING, and none in DISABLED
(R132, R133, R137). -/
def InvPort (sp : StreamPort) : Prop :=
  (∀ b, sp.burst = some b → sp.srq.head? = some b.hdr) ∧
  (match sp.state with
   | .enabled | .suspended => sp.credits + sp.srq.length = 4
   | .disabling => sp.credits = 0 ∧ sp.srq.length = 1 ∧ sp.burst.isSome = true
   | .disabled => sp.credits = 0 ∧ sp.srq = [] ∧ sp.burst = none)

/-- Both stream ports keep the credit law. -/
def InvPorts (s : State) : Prop := InvPort s.sp0 ∧ InvPort s.sp1

/-- An IDLE array interface has no access (Table 1-6), and in HALTED no request, no burst and no atomic is in progress,
the scrub engine is IDLE, and no access but the drain engine's is in flight (R83, R102, R105). -/
def InvHalted (s : State) : Prop :=
  (s.aif.state = .idle → s.aif.access = none) ∧
  (s.ctl.state = .halted →
    s.ppt.exec = none ∧ s.sp0.burst = none ∧ s.sp1.burst = none ∧ s.wlt = [] ∧ s.sce.state = .idle ∧
    ∀ a, s.aif.access = some a → a.requester = .dr)

/-- The state of the drain engine's entry goes with its phase (Table 2-4). -/
def drainFits (phase : DrainPhase) (st : EntryState) : Prop :=
  match phase with
  | .idle => False
  | .readWait | .writeWait => st = .pending
  | .readAccess => st = .reading
  | .writeAccess | .resolveAccess => st = .writing
  | .resolveWait => st = .faulted

/-- The merge buffer: at most one non-FREE entry a word (R18); the age list holds each non-FREE entry once and no other
(R19); the drain engine has an entry in every phase but IDLE, in the state of Table 2-4 (R32). -/
def InvBuffer (s : State) : Prop :=
  (∀ e f, (s.mb.entry e).active = true → (s.mb.entry f).active = true →
    (s.mb.entry e).addr = (s.mb.entry f).addr → e = f) ∧
  s.mb.age.Nodup ∧ (∀ e, e ∈ s.mb.age ↔ (s.mb.entry e).active = true) ∧
  (match s.mb.drain.entry with
   | none => s.mb.drain.phase = .idle
   | some e => drainFits s.mb.drain.phase (s.mb.entry e).state)

/-- The word lock table holds at most one entry a port (R54). -/
def InvLocks (s : State) : Prop := (s.wlt.map (·.port)).Nodup

/-- The scrub bypass count is at most 16, and 0 while the scrub engine has no request waiting (R80). -/
def InvBypass (s : State) : Prop := s.arb.bypass ≤ 16 ∧ (s.arb.slots.sc = none → s.arb.bypass = 0)

/-- Every configuration register holds a legal value (R4, R33, R111) and the prescale count is below CFG_PRESCALE
(R110); no region's last block is below its first (R90). -/
def InvSettings (s : State) : Prop :=
  s.cfg.memsize ≤ 4#3 ∧ 1#16 ≤ s.cfg.prescale ∧ s.cfg.prescale ≤ 1023#16 ∧
  s.ctl.prescaleCount < s.cfg.prescale.toNat ∧
  1#4 ≤ s.cfg.lwm ∧ s.cfg.lwm ≤ s.cfg.hwm ∧ s.cfg.hwm ≤ 8#4 ∧
  ∀ n : Fin 16, s.acu.regions[n].first ≤ s.acu.regions[n].last

/-- How far a sequence number lies after another, counting forward and wrapping from 65535 to 0. -/
def seqAfter (base x : Reg16) : Nat := (x - base).toNat

/-- How far the sequence counter lies after the oldest record's number, 65536 standing for once round. -/
def counterAfter (base counter : Reg16) : Nat := if counter = base then 65536 else seqAfter base counter

/-- The log's numbers, counted forward from the oldest record's, rise, and stay short of the counter, which has room for
every record the log can still keep (R176). -/
def InvSequence (s : State) : Prop :=
  match s.elog.records with
  | [] => True
  | r :: rest =>
    ((r :: rest).map fun x => seqAfter r.seq x.seq).Pairwise (· < ·) ∧
    (∀ x ∈ r :: rest, seqAfter r.seq x.seq < counterAfter r.seq s.elog.seq) ∧
    s.elog.records.length ≤ 8 ∧
    counterAfter r.seq s.elog.seq + (8 - s.elog.records.length) ≤ 65536

end Sys2Proof.Machine
end

