-- ==== Sys2Proof/WellFormed.lean ====
section
/-! DEFINITION. When a command's operands are those its row of the opcode table speaks of. A term that fails is not
stopped: the machine treats it as the row its operands name (log 19). -/

namespace Sys2Proof

/-- The offsets of Table 10-2 whose write has a behaviour of its own: COMMAND, the four CFG registers of R108,
REQ_SUBMIT and IRQ_PENDING. -/
def ownBehaviourOffsets : List (BitVec 7) := [0x02#7, 0x08#7, 0x09#7, 0x0A#7, 0x0B#7, 0x17#7, 0x50#7]

/-- The command codes of Table 10-9 (R194). -/
def commandCodes : List (BitVec 8) :=
  [0x01#8, 0x02#8, 0x08#8, 0x09#8, 0x0A#8, 0x0B#8, 0x10#8, 0x11#8, 0x18#8, 0x19#8, 0x1A#8,
   0x20#8, 0x21#8, 0x22#8, 0x23#8, 0x28#8, 0x29#8, 0x2A#8]

/-- The operands fit the row. -/
def WellFormed : Instr → Bool
  | .registerWrite _ off _ => !ownBehaviourOffsets.contains off
  | .unknownCommand _ code _ => !commandCodes.contains code
  | .header _ f => frameType f.frame == 1#4
  | .writeBeat _ f _ => frameType f.frame == 2#4
  | .abort _ f => frameType f.frame == 3#4
  | .discardedFrame _ f => frameType f.frame == 0#4 || 4#4 ≤ frameType f.frame
  | .arrayDisturbance _ flips => flips != 0#39
  | .resetAssert | .resetRelease | .tick | .beatTimerExpiry _ | .intervalExpiry
  | .ctrlStatusRead _ | .cplPop _ | .reqSubmit _ _ | .cfgMemsizeWrite _ _ | .cfgPrescaleWrite _ _
  | .cfgWatermarksWrite _ _ | .cfgProtectWrite _ _ | .irqPendingWrite _ _
  | .run _ _ | .halt _ _ | .portEnable _ _ | .portDisable _ _ | .portReset _ _ | .portResume _ _
  | .loadRegion _ _ | .viewRegion _ _ | .viewEntry _ _ | .resolveDiscard _ _ | .resolveForce _ _
  | .scrubStart _ _ | .scrubStop _ _ | .fillStart _ _ | .fillStop _ _
  | .logPop _ _ | .logClearOverflow _ _ | .clearCounts _ _
  | .prqDispatch | .srqDispatch _ | .arrayGrant | .drainStart | .resolveWriteRequest
  | .ppReadCompletion | .streamReadCompletion | .drainReadCompletion | .drainWriteCompletion
  | .atomicReadCompletion | .atomicWriteCompletion | .patrolReadCompletion | .patrolWriteCompletion
  | .fillWriteCompletion | .lockHoldRelease _ | .fenceHoldRelease _ | .waitingWriterAllocation
  | .forcedDrainSignal | .flushCompletion | .quiesceComplete | .refclkPeriod => true

end Sys2Proof
end

