-- ==== Sys2Proof/Certificates/Slice0/Obligations.lean ====
section
/-! DEFINITION. The statements for the provers. `u` is the state in which an event from outside begins: what the events
before it set in motion has come about (log 1); with nothing due it is the state itself but for one of the model's own
flags. -/

section

open Sys2Proof Sys2Proof.Machine

/-! ### The step -/

/-- A step takes the command at the front of the queue and runs it on the state with the queue's rest. -/
def Obligations.StepRunsFrontCommand : Prop :=
  ∀ (c : Instr) (s : State), step { s with pending := c :: s.pending } = exec c s

/-- With no command waiting a step takes one event that is due, the only one or one in a free order, and with none due
the block idles (the model's choice: logs 2 and 3). An event from outside begins where the due events have been taken, one
after another up to a bound, and the mark of the interface's return to IDLE is cleared; with nothing due it begins in the
state itself but for that mark (the model's choice: log 1). A beat that comes together with hold releases begins before
them, and a bus access or an ABORT that comes together with a grant begins before that grant: one at the interface's
return to IDLE, or one while the patrol's request waits (the model's form of R64, R82, R160 and R170: log 18; that the
patrol's request is then in its slot, and counts what passes it over, is the model's choice: log 29). -/
def Obligations.EmptyQueueTakesDueEvent : Prop :=
  (∀ s : State, s.pending = [] →
    (s.due = [] → step s = .next s) ∧
    (∀ d, s.due = [d] → step s = .next (s.fire d)) ∧
    (s.due ≠ [] →
      ∃ d ∈ s.due, step s = .next (s.fire d) ∨
        step s = .next ({ s with own := { s.own with freeCount := s.own.freeCount + 1 } }.fire d))) ∧
  (∀ s : State,
    let unmarked := fun t : State => { t with own := { t.own with backToIdle := false } }
    s.eventStart = unmarked (s.settleWith (fun _ _ => true) s.settleFuel) ∧
    s.eventTogether = s.settleWith (fun _ d => !d.isLockRelease) s.settleFuel ∧
    s.eventStartBy false = s.eventStart ∧
    s.eventStartBy true = unmarked (s.settleWith (fun t d => !t.openGrant d) s.settleFuel) ∧
    (∀ d : Due, d.isLockRelease = true ↔ ∃ q, d = .lockRelease q) ∧
    (∀ d : Due, s.openGrant d = true ↔ d = .grant ∧ (s.own.backToIdle = true ∨ s.sce.state = .patrolRequest)) ∧
    256 ≤ s.settleFuel ∧
    (s.due = [] → s.eventStart = unmarked s ∧ s.eventTogether = s ∧ s.eventStartBy true = unmarked s)) ∧
  (∀ (s : State) (keep : State → Due → Bool) (n : Nat),
    ((∀ d ∈ s.due, keep s d = false) → s.settleWith keep n = s) ∧
    ((∃ d ∈ s.due, keep s d = true) →
      ∃ d ∈ s.due, keep s d = true ∧
        (s.settleWith keep (n + 1) = (s.fire d).settleWith keep n ∨
         s.settleWith keep (n + 1) =
           ({ s with own := { s.own with freeCount := s.own.freeCount + 1 } }.fire d).settleWith keep n)))

/-! ### Reset -/

/-- The value every offset of the window reads after device reset (R192). -/
def Obligations.ResetRegisterValues : Prop :=
  ∀ off : BitVec 7, State.reset.regRead off =
    if off = 0x00#7 then 0x4A58#16
    else if off = 0x01#7 then 0x3F00#16
    else if off = 0x09#7 then 0x0001#16
    else if off = 0x0A#7 then 0x0601#16
    else if off = 0x0C#7 then 0x0001#16
    else if off = 0x39#7 then 0x0400#16
    else 0x0000#16

/-- RESET_ASSERT: every block takes its defaults and nothing is sent; the array keeps every word, but for the word of an
access cut off in WRITING or PAIRED_WRITE, which holds its old contents or the new data, CLEAN; a second assertion has no
effect (R198, R16). That the data lines hold 0000h and that the record of each outbound link is emptied are the model's
choices (logs 10 and 11), and no rule's. -/
def Obligations.ResetAssertTakesDefaults : Prop :=
  ∀ s : State,
    (s.resetAsserted = true → exec .resetAssert s = .next s) ∧
    (s.resetAsserted = false →
      let u := s.eventStart
      ∃ t, exec .resetAssert s = .next t ∧
        t = { State.reset with
                resetAsserted := true
                array := t.array
                own := { freeCount := t.own.freeCount, backToIdle := false }
                pending := s.pending } ∧
        t.intPin = false ∧
        t.memBus = { chipEnable := false, outputEnable := false, writeEnable := false, address := none, driven := none } ∧
        (∀ a : Addr,
          ¬ ((u.aif.state = .writing ∨ u.aif.state = .pairedWrite) ∧ ∃ x, u.aif.access = some x ∧ x.addr = a) →
          t.wordAt a = s.wordAt a) ∧
        (∀ x d, (u.aif.state = .writing ∨ u.aif.state = .pairedWrite) → u.aif.access = some x →
          x.writeData = some d → t.wordAt x.addr = s.wordAt x.addr ∨ t.wordAt x.addr = .fresh d))

/-- RESET_RELEASE changes the pin alone, so that after an assertion and a release every block begins from its defaults;
and while RESET is asserted no event but the release and a disturbance of the array changes anything, but that a read
returns 0000h (R198, R199). That the data lines hold 0000h and the record of each outbound link is empty from reset are
the model's choices (logs 10 and 11), and no rule's. -/
def Obligations.ReleaseAndHeldReset : Prop :=
  ∀ s : State,
    exec .resetRelease s = .next { s with resetAsserted := false } ∧
    (∀ t, s.resetAsserted = false → exec .resetAssert s = .next t →
      exec .resetRelease t =
        .next { State.reset with
          array := t.array, own := { freeCount := t.own.freeCount, backToIdle := false }, pending := s.pending }) ∧
    (s.resetAsserted = true → ∀ c : Instr, c ≠ .resetRelease → (∀ a x, c ≠ .arrayDisturbance a x) →
      (∀ b, c = .ctrlStatusRead b ∨ c = .cplPop b →
        (b.chipSelect = true → b.otherStrobe = false → b.crossed = false →
          exec c s = .next { s with ctl := { s.ctl with readData := 0x0000#16 } }) ∧
        (b.chipSelect = false ∨ b.otherStrobe = true ∨ b.crossed = true → exec c s = .next s)) ∧
      ((∀ b, c ≠ .ctrlStatusRead b ∧ c ≠ .cplPop b) → exec c s = .next s)) ∧
    (s.resetAsserted = true → s.due = [] ∧ s.intPin = false ∧ ∀ off, s.windowRead off = 0x0000#16)

/-- What every offset reads in an arbitrary state, field by field at the bit positions of Tables 10-3, 10-5 and 10-7,
with the codes of Tables 10-4, 10-6 and 10-7; an offset that names no register, COMMAND and REQ_SUBMIT read 0000h;
LOG_DETAIL by kind with Table 10-8 (R49, R114, R129, R172, R180, R189, R190, R193, R194). CTRL_STATUS, CPL_POP and
IRQ_PENDING are stated with their own rules. -/
def Obligations.RegisterLayouts : Prop :=
  (∀ s : State,
    let lo := fun d : Word => d.extractLsb' 0 16
    let hi := fun d : Word => d.extractLsb' 16 16
    let addrLo := fun a : Addr => a.extractLsb' 0 16
    let addrHi := fun a : Addr => (a.extractLsb' 16 4).setWidth 16
    let pointer := if s.sce.lastMode = .fill then s.sce.fillPtr else s.sce.patrolPtr
    let summary :=
      (if (s.mb.entry 0).state = .faulted then 1 else 0) + (if (s.mb.entry 1).state = .faulted then 2 else 0) +
      (if (s.mb.entry 2).state = .faulted then 4 else 0) + (if (s.mb.entry 3).state = .faulted then 8 else 0) +
      (if (s.mb.entry 4).state = .faulted then 16 else 0) + (if (s.mb.entry 5).state = .faulted then 32 else 0) +
      (if (s.mb.entry 6).state = .faulted then 64 else 0) + (if (s.mb.entry 7).state = .faulted then 128 else 0) +
      256 * s.mb.count (fun e => e.state == .pending) + 4096 * s.mb.count (fun e => e.state == .reading) +
      8192 * s.mb.count (fun e => e.state == .writing) + 16384 * s.mb.waiting.length
    let status := fun sp : StreamPort =>
      sp.state.code + 4 * sp.srq.length + 32 * sp.credits + 256 * sp.cause.code +
      (if sp.burst = none then 0 else 2048) + (if sp.discardedRead = none then 0 else 4096)
    let burst := fun sp : StreamPort =>
      match sp.burst with
      | none => 0
      | some b => b.hdr.tag.toNat + 16 * b.hdr.op.code + 128 * b.phase.code + 2048 * b.done
    let config := fun sp : StreamPort => sp.beatTimeout.toNat + (if sp.suspendOnFault then 256 else 0)
    let fields : List (BitVec 7 × Reg16) :=
      [(0x00#7, 0x4A58#16), (0x03#7, BitVec.ofNat 16 (s.ctl.cmdResult.code + 256 * s.ctl.cmdCode.toNat)),
       (0x08#7, s.cfg.memsize.setWidth 16), (0x09#7, s.cfg.prescale),
       (0x0A#7, BitVec.ofNat 16 (s.cfg.lwm.toNat + 256 * s.cfg.hwm.toNat)),
       (0x0B#7, if s.cfg.protect then 1#16 else 0#16), (0x0C#7, if s.cfg.logging then 1#16 else 0#16),
       (0x10#7, s.ppt.reqOp), (0x11#7, s.ppt.reqAddr.extractLsb' 0 16),
       (0x12#7, (s.ppt.reqAddr.extractLsb' 16 6).setWidth 16), (0x13#7, lo s.ppt.reqOpA), (0x14#7, hi s.ppt.reqOpA),
       (0x15#7, lo s.ppt.reqOpB), (0x16#7, hi s.ppt.reqOpB), (0x18#7, BitVec.ofNat 16 s.ppt.submitStatus.code)] ++
      [(0x19#7, BitVec.ofNat 16
          (s.ppt.prq.length + (if s.ppt.exec = none then 0 else 8) + 256 * s.ppt.cq.length)),
       (0x1D#7, lo s.ppt.cplData), (0x1E#7, hi s.ppt.cplData), (0x20#7, s.acu.rgnFirst.setWidth 16),
       (0x21#7, s.acu.rgnLast.setWidth 16), (0x22#7, s.acu.rgnRights), (0x24#7, s.acu.viewFirst.setWidth 16),
       (0x25#7, s.acu.viewLast.setWidth 16), (0x26#7, s.acu.viewRights), (0x28#7, BitVec.ofNat 16 summary),
       (0x29#7, s.mb.view.state), (0x2A#7, addrLo s.mb.view.addr), (0x2B#7, addrHi s.mb.view.addr),
       (0x2C#7, lo s.mb.view.data), (0x2D#7, hi s.mb.view.data)] ++
      [(0x30#7, BitVec.ofNat 16 (status s.sp0)), (0x31#7, BitVec.ofNat 16 (burst s.sp0)),
       (0x32#7, BitVec.ofNat 16 (config s.sp0)), (0x34#7, BitVec.ofNat 16 (status s.sp1)),
       (0x35#7, BitVec.ofNat 16 (burst s.sp1)), (0x36#7, BitVec.ofNat 16 (config s.sp1)),
       (0x38#7, BitVec.ofNat 16
          (s.sce.state.code + (if s.sce.stopPending then 8 else 0) + 16 * s.sce.lastMode.code +
           64 * s.sce.fillResult.code)),
       (0x39#7, s.sce.regInterval), (0x3A#7, s.sce.passes), (0x3B#7, addrLo pointer), (0x3C#7, addrHi pointer),
       (0x40#7, addrLo s.sce.regFillFirst), (0x41#7, addrHi s.sce.regFillFirst), (0x42#7, addrLo s.sce.regFillLast),
       (0x43#7, addrHi s.sce.regFillLast), (0x44#7, lo s.sce.regFillPattern), (0x45#7, hi s.sce.regFillPattern)] ++
      [(0x48#7, BitVec.ofNat 16 (s.elog.records.length + (if s.elog.overflow then 256 else 0))),
       (0x49#7, s.elog.view.seq), (0x4A#7, s.elog.view.kind), (0x4B#7, s.elog.view.detail),
       (0x4C#7, addrLo s.elog.view.addr), (0x4D#7, addrHi s.elog.view.addr), (0x4E#7, s.elog.cntCorrected),
       (0x4F#7, s.elog.cntUncorrectable), (0x51#7, s.irq.enable)]
    (∀ x ∈ fields, s.regRead x.1 = x.2) ∧
    (∀ off, off ∉ fields.map (·.1) → off ≠ 0x01#7 → off ≠ 0x1C#7 → off ≠ 0x50#7 → s.regRead off = 0x0000#16) ∧
    (s.resetAsserted = false → ∀ off, s.windowRead off = s.eventStart.regRead off)) ∧
  (∀ r : ErrorRecord,
    let access := match r.access with
      | none => 0
      | some k => k.code
    let tag := match r.tag with
      | none => 0
      | some t => t.toNat
    let position := match r.pos with
      | none => 0
      | some p => p.toNat
    let entry := match r.entry with
      | none => 0
      | some e => e.val
    let mask := match r.mask with
      | none => 0
      | some m => m.toNat
    let cause := match r.cause with
      | none => 0
      | some c => c.code
    r.detail = BitVec.ofNat 16
      (match r.kind with
       | .corrected | .uncorrectable => access + 16 * tag + 256 * position
       | .alignFault | .addressFault | .regionFault => access + 16 * tag
       | .mergeFault => 256 * entry + 4096 * mask
       | .protocol => access + 16 * tag + 256 * cause)) ∧
  [CtrlState.halted, .running, .quiescing].map CtrlState.code = [0, 1, 2] ∧
  [SubmitStatus.none, .accepted, .queueFull, .invalid].map SubmitStatus.code = [0, 1, 2, 3] ∧
  [CplStatus.ok, .okCorrected, .casFailed, .alignFault, .addressFault, .regionFault, .uncorrectable, .entryFaulted,
   .flushFaulted].map CplStatus.code = [1, 2, 3, 4, 5, 6, 7, 8, 9] ∧
  [ReqOp.read, .write, .atomic .fetchAdd, .atomic .fetchOr, .atomic .fetchClear, .atomic .swap, .atomic .compareSwap,
   .flush].map ReqOp.code = [0, 1, 2, 3, 4, 5, 6, 7] ∧
  [sizeOfCode 0#2, sizeOfCode 1#2, sizeOfCode 2#2, sizeOfCode 3#2] = [Size.byte, .half, .word, .noSize] ∧
  [CmdResult.none, .done, .refusedState, .refusedArgument, .unknown].map CmdResult.code = [0, 1, 2, 3, 4] ∧
  [EntryState.free, .pending, .reading, .writing, .faulted].map EntryState.code = [0, 1, 2, 3, 4] ∧
  [PortState.disabled, .enabled, .suspended, .disabling].map PortState.code = [0, 1, 2, 3] ∧
  [SuspendCause.none, .protocol, .timeout, .uncorrectable, .fault].map SuspendCause.code = [0, 1, 2, 3, 4] ∧
  [BurstPhase.readHold, .readWait, .readAccess, .beatWait, .merge, .admitHold, .operandWait, .operandBlocked,
   .locked].map BurstPhase.code = [0, 1, 2, 3, 4, 5, 6, 7, 8] ∧
  [ScrubState.idle, .patrolWait, .patrolRequest, .patrolAccess, .fillRequest, .fillAccess].map ScrubState.code =
    [0, 1, 2, 3, 4, 5] ∧
  [LastMode.none, .patrol, .fill].map LastMode.code = [0, 1, 2] ∧
  [FillResult.none, .running, .done, .stopped].map FillResult.code = [0, 1, 2, 3] ∧
  [RecordKind.corrected, .uncorrectable, .alignFault, .addressFault, .regionFault, .mergeFault, .protocol].map
    RecordKind.code = [1, 2, 3, 4, 5, 6, 7] ∧
  [Source.pp, .sp0, .sp1, .drain, .scrub].map Source.code = [0, 1, 2, 3, 4] ∧
  [AccessType.read, .write, .atomic, .patrol].map AccessType.code = [1, 2, 3, 4] ∧
  [ProtocolCause.parity, .opcode, .credit, .length, .timeout].map ProtocolCause.code = [1, 2, 3, 4, 5]

/-- The frames of a link, bit by bit: a HEADER's fields and its parity over bits 35:4, a beat's and an ABORT's fields,
and the frame of every message that a port sends, with every bit outside its fields 0 (R195 to R197, Tables 10-11 and
10-12). The memory bus in each state of the array interface: in an access the word's address, in a write the data bits
on lines 0 to 31 and the check bits on lines 32 to 38, in IDLE nothing (R1, Table 1-6); which enables stand at a read
and at a write is the model's reading (log 27), and the check bits of a data word are a free function of it (log 8). -/
def Obligations.LinkFramesAndMemoryBus : Prop :=
  (∀ f : Frame,
    frameType f = f.extractLsb' 0 4 ∧ headerAddr f = f.extractLsb' 4 20 ∧ headerTag f = f.extractLsb' 24 4 ∧
    headerLength f = (f.extractLsb' 28 4).toNat + 1 ∧ headerOpCode f = (f.extractLsb' 32 3).toNat ∧
    (headerParityOdd f = true ↔ ((List.range' 4 32).filter fun k => f.getLsbD k).length % 2 = 1) ∧
    beatTag f = f.extractLsb' 4 4 ∧ beatMask f = f.extractLsb' 8 4 ∧ beatData f = f.extractLsb' 12 32) ∧
  (∀ n,
    let f := (LinkMsg.credit n).frame
    f.extractLsb' 0 4 = 1#4 ∧ f.extractLsb' 4 3 = BitVec.ofNat 3 n ∧ f.extractLsb' 7 41 = 0#41) ∧
  LinkMsg.close.frame = 2#48 ∧
  (∀ t : Tag,
    let f := (LinkMsg.dataRequest t).frame
    f.extractLsb' 0 4 = 3#4 ∧ f.extractLsb' 4 4 = t ∧ f.extractLsb' 8 40 = 0#40) ∧
  (∀ (t : Tag) (d : Word) (st : BeatStatus),
    let f := (LinkMsg.readBeat t d st).frame
    f.extractLsb' 0 4 = 4#4 ∧ f.extractLsb' 4 4 = t ∧ f.extractLsb' 8 2 = BitVec.ofNat 2 st.code ∧
    f.extractLsb' 10 2 = 0#2 ∧ f.extractLsb' 12 32 = d ∧ f.extractLsb' 44 4 = 0#4) ∧
  (∀ (t : Tag) (st : EndStatus) (n : Nat),
    let f := (LinkMsg.endMsg t st n).frame
    f.extractLsb' 0 4 = 5#4 ∧ f.extractLsb' 4 4 = t ∧ f.extractLsb' 8 4 = BitVec.ofNat 4 st.code ∧
    f.extractLsb' 12 5 = BitVec.ofNat 5 n ∧ f.extractLsb' 17 31 = 0#31) ∧
  [BeatStatus.clean, .corrected, .uncorrectable].map BeatStatus.code = [0, 1, 2] ∧
  [EndStatus.ok, .casFailed, .addressFault, .regionFault, .uncorrectable, .entryFaulted, .aborted, .protocol].map
    EndStatus.code = [0, 1, 2, 3, 4, 5, 6, 7] ∧
  (∀ s : State,
    (s.aif.state = .idle →
      s.memBus = { chipEnable := false, outputEnable := false, writeEnable := false, address := none, driven := none }) ∧
    (∀ a, s.aif.access = some a → s.aif.state = .reading ∨ s.aif.state = .pairedRead →
      s.memBus =
        { chipEnable := true, outputEnable := true, writeEnable := false, address := some a.addr, driven := none }) ∧
    (∀ a d, s.aif.access = some a → a.writeData = some d → s.aif.state = .writing ∨ s.aif.state = .pairedWrite →
      ∃ lines : Bits39,
        s.memBus =
          { chipEnable := true, outputEnable := false, writeEnable := true, address := some a.addr
            driven := some lines } ∧
        lines.extractLsb' 0 32 = d ∧ lines.extractLsb' 32 7 = Config.checkBits d))

/-! ### The timebase -/

/-- REFCLK_PERIOD advances the prescale count, or, at its last value, returns it to 0 and completes a tick, which every
running timer counts (R110, R152, R160); TICK is that period (the model's choice, log 12). -/
def Obligations.RefclkAndTick : Prop :=
  ∀ s : State, s.resetAsserted = false →
    let u := s.eventStart
    (u.ctl.prescaleCount + 1 < u.cfg.prescale.toNat →
      exec .refclkPeriod s = .next { u with ctl := { u.ctl with prescaleCount := u.ctl.prescaleCount + 1 } }) ∧
    (u.ctl.prescaleCount + 1 = u.cfg.prescale.toNat →
      ∃ t, exec .refclkPeriod s = .next t ∧ exec .tick s = .next t ∧
        u.sameBut t [.ctl, .sp0, .sp1, .sce] ∧
        t.ctl = { u.ctl with prescaleCount := 0 } ∧
        (∀ p, (t.sp p =
            { u.sp p with timer := (u.sp p).timer + 1, expiryDue := (u.sp p).beatTimeout.toNat ≤ (u.sp p).timer + 1 } ∧
            (u.sp p).beatTimeout ≠ 0#8 ∧ u.beatOnLink p = false ∧
            ∃ x, (u.sp p).burst = some x ∧ (x.phase = .beatWait ∨ x.phase = .operandWait)) ∨
          (t.sp p = u.sp p ∧
            ((u.sp p).beatTimeout = 0#8 ∨ u.beatOnLink p = true ∨
             ∀ x, (u.sp p).burst = some x → x.phase ≠ .beatWait ∧ x.phase ≠ .operandWait))) ∧
        (u.sce.state = .patrolWait →
          t.sce =
            { u.sce with
              intervalCount := u.sce.intervalCount + 1
              intervalDue := u.sce.regInterval.toNat ≤ u.sce.intervalCount + 1 }) ∧
        (u.sce.state ≠ .patrolWait → t.sce = u.sce))

/-- BEAT_TIMER_EXPIRY ends the burst with END PROTOCOL, makes the TIMEOUT record for the current word and suspends the
port with cause TIMEOUT, but for a DISABLING port, which is then DISABLED (R153). INTERVAL_EXPIRY: the scrub engine enters
PATROL_REQUEST and asks for a PAIRED access of the patrol pointer's word (R160). -/
def Obligations.TimerExpiries : Prop :=
  (∀ (s : State) (p : SpId) (x : Burst), Ready s → (s.sp p).burst = some x →
      (x.phase = .beatWait ∨ x.phase = .operandWait) → (s.sp p).expiryDue = true →
      ∃ t, exec (.beatTimerExpiry p) s = .next t ∧
        t.sp p = ((s.sp p).ended x.hdr.tag .protocol x.done).stopped .timeout ∧
        t.elog =
          (s.logRecord
            { ErrorRecord.base .protocol (portSource p.port) x.word with
              access := some x.hdr.op.access, tag := some x.hdr.tag, cause := some .timeout }).elog ∧
        s.sameBut t [spBlock p, .elog]) ∧
  (∀ s : State, Ready s → s.sce.state = .patrolWait → s.sce.intervalDue = true →
      exec .intervalExpiry s =
        .next { s with
          sce := { s.sce with state := .patrolRequest, intervalDue := false }
          arb := { s.arb with slots := { s.arb.slots with sc := some { kind := .paired, addr := some s.sce.patrolPtr } } } })

/-! ### Reads with an effect -/

/-- CTRL_STATUS_READ returns the controller state, CONFIG_REFUSED and the six quiesce conditions in their places, with
every other bit 0, and clears CONFIG_REFUSED alone (R109, R193). CPL_POP returns and removes the head completion record
and copies its data into CPL_DATA; on an empty queue it returns 0000h, EMPTY, and changes nothing else (R123). -/
def Obligations.ReadsWithAnEffect : Prop :=
  (∀ (s : State) (b : Bus), Taken s b →
      let u := s.eventStartBy b.together
      ∃ v : Reg16,
        exec (.ctrlStatusRead b) s = .next { u with ctl := { u.ctl with readData := v, configRefused := false } } ∧
        v.extractLsb' 0 4 = BitVec.ofNat 4 u.ctl.state.code ∧
        v.getLsbD 4 = u.ctl.configRefused ∧ v.extractLsb' 5 3 = 0#3 ∧
        (v.getLsbD 8 = true ↔ u.ppt.exec = none) ∧
        (v.getLsbD 9 = true ↔ u.sp0.burst = none ∧ u.sp1.burst = none) ∧
        (v.getLsbD 10 = true ↔ u.wlt = []) ∧
        (v.getLsbD 11 = true ↔ ∀ e, (u.mb.entry e).state = .free ∨ (u.mb.entry e).state = .faulted) ∧
        (v.getLsbD 12 = true ↔ u.aif.state = .idle) ∧
        (v.getLsbD 13 = true ↔ u.sce.state = .idle) ∧ v.extractLsb' 14 2 = 0#2) ∧
  (∀ (s : State) (b : Bus), Taken s b →
      let u := s.eventStartBy b.together
      (u.ppt.cq = [] → exec (.cplPop b) s = .next { u with ctl := { u.ctl with readData := 0x0000#16 } }) ∧
      (∀ c rest, u.ppt.cq = c :: rest →
        exec (.cplPop b) s =
          .next { u with
            ppt := { u.ppt with cq := rest, cplData := c.data }
            ctl := { u.ctl with readData := BitVec.ofNat 16 (c.status.code + 16 * c.op.code + 256 * c.tag.toNat) } })) ∧
  State.reset.ctl.configRefused = false

/-! ### Window writes -/

/-- REQ_SUBMIT: an operation code of 8 to 15, size code 3 but for FLUSH, or an atomic that is not of size WORD is INVALID;
a valid request is refused QUEUE_FULL at 4 queued records and else joins the PRQ's tail (R113, R114). -/
def Obligations.ReqSubmit : Prop :=
  ∀ (s : State) (b : Bus) (v : Reg16), Taken s b →
    let u := s.eventStartBy b.together
    let code := (u.ppt.reqOp.extractLsb' 0 4).toNat
    let size := u.ppt.reqOp.extractLsb' 4 2
    let invalid := 8 ≤ code ∨ (code ≠ 7 ∧ size = 3#2) ∨ (2 ≤ code ∧ code ≤ 6 ∧ size ≠ 2#2)
    (invalid → exec (.reqSubmit b v) s = .next { u with ppt := { u.ppt with submitStatus := .invalid } }) ∧
    (¬ invalid → 4 ≤ u.ppt.prq.length →
      exec (.reqSubmit b v) s = .next { u with ppt := { u.ppt with submitStatus := .queueFull } }) ∧
    (¬ invalid → u.ppt.prq.length < 4 →
      ∃ r : PpRequest,
        exec (.reqSubmit b v) s =
          .next { u with ppt := { u.ppt with submitStatus := .accepted, prq := u.ppt.prq ++ [r] } } ∧
        r.op.code = code ∧ r.size = sizeOfCode size ∧ r.tag = u.ppt.reqOp.extractLsb' 8 4 ∧
        r.addr = u.ppt.reqAddr ∧ r.opA = u.ppt.reqOpA ∧ r.opB = u.ppt.reqOpB)

/-- CFG_MEMSIZE_WRITE is taken when HALTED with code 0 to 4 and all eight entries FREE, and moves a patrol pointer at or
above the new size to 0; in every other case the code stays and CONFIG_REFUSED is set (R5; R6). -/
def Obligations.CfgMemsizeWrite : Prop :=
  ∀ (s : State) (b : Bus) (v : Reg16), Taken s b →
    let u := s.eventStartBy b.together
    let code := v.extractLsb' 0 3
    let taken := u.ctl.state = .halted ∧ code.toNat ≤ 4 ∧ ∀ e, (u.mb.entry e).state = .free
    (taken →
      exec (.cfgMemsizeWrite b v) s =
        .next { u with
          cfg := { u.cfg with memsize := code }
          sce := { u.sce with
            patrolPtr := if 65536 * 2 ^ code.toNat ≤ u.sce.patrolPtr.toNat then 0#20 else u.sce.patrolPtr } }) ∧
    (¬ taken → exec (.cfgMemsizeWrite b v) s = .next { u with ctl := { u.ctl with configRefused := true } })

/-- CFG_PRESCALE_WRITE (the whole value, 1 to 1023; the prescale count returns to 0), CFG_WATERMARKS_WRITE
(1 ≤ LWM ≤ HWM ≤ 8) and CFG_PROTECT_WRITE (bit 0) are taken in HALTED, and else refused with CONFIG_REFUSED
(R108, R111, R33, R94). -/
def Obligations.CfgOtherWrites : Prop :=
  ∀ (s : State) (b : Bus) (v : Reg16), Taken s b →
    let u := s.eventStartBy b.together
    let refused : State := { u with ctl := { u.ctl with configRefused := true } }
    let lwm := v.extractLsb' 0 4
    let hwm := v.extractLsb' 8 4
    let prescaleOk := u.ctl.state = .halted ∧ 1 ≤ v.toNat ∧ v.toNat ≤ 1023
    let watermarksOk := u.ctl.state = .halted ∧ 1 ≤ lwm.toNat ∧ lwm.toNat ≤ hwm.toNat ∧ hwm.toNat ≤ 8
    (prescaleOk →
      exec (.cfgPrescaleWrite b v) s =
        .next { u with cfg := { u.cfg with prescale := v }, ctl := { u.ctl with prescaleCount := 0 } }) ∧
    (¬ prescaleOk → exec (.cfgPrescaleWrite b v) s = .next refused) ∧
    (watermarksOk →
      exec (.cfgWatermarksWrite b v) s = .next { u with cfg := { u.cfg with lwm := lwm, hwm := hwm } }) ∧
    (¬ watermarksOk → exec (.cfgWatermarksWrite b v) s = .next refused) ∧
    (u.ctl.state = .halted →
      exec (.cfgProtectWrite b v) s = .next { u with cfg := { u.cfg with protect := v.getLsbD 0 } }) ∧
    (u.ctl.state ≠ .halted → exec (.cfgProtectWrite b v) s = .next refused)

/-- IRQ_PENDING_WRITE clears each sticky source written with 1 and changes nothing else; each source reads pending by its
condition or as held, and INT is asserted exactly while a pending source is enabled, outside reset
(R184, R185, R186, R198). -/
def Obligations.InterruptSources : Prop :=
  (∀ (s : State) (b : Bus) (v : Reg16), Taken s b →
    let u := s.eventStartBy b.together
    exec (.irqPendingWrite b v) s =
      .next { u with
        irq := { u.irq with
          mbBlocked := u.irq.mbBlocked && !v.getLsbD 8
          scrubPass := u.irq.scrubPass && !v.getLsbD 9
          fillDone := u.irq.fillDone && !v.getLsbD 10
          haltDone := u.irq.haltDone && !v.getLsbD 11 } }) ∧
  (∀ s : State,
    (s.irqPending.getLsbD 0 = true ↔ s.ppt.cq ≠ []) ∧ (s.irqPending.getLsbD 1 = true ↔ s.elog.records ≠ []) ∧
    s.irqPending.getLsbD 2 = s.elog.overflow ∧
    (s.irqPending.getLsbD 3 = true ↔ s.sp0.state = .suspended) ∧
    (s.irqPending.getLsbD 4 = true ↔ s.sp1.state = .suspended) ∧
    (s.irqPending.getLsbD 5 = true ↔ ∃ e, (s.mb.entry e).state = .faulted) ∧
    s.irqPending.getLsbD 8 = s.irq.mbBlocked ∧ s.irqPending.getLsbD 9 = s.irq.scrubPass ∧
    s.irqPending.getLsbD 10 = s.irq.fillDone ∧ s.irqPending.getLsbD 11 = s.irq.haltDone ∧
    s.irqPending.extractLsb' 6 2 = 0#2 ∧ s.irqPending.extractLsb' 12 4 = 0#4 ∧
    (s.intPin = true ↔ s.resetAsserted = false ∧ ∃ k, s.irqPending.getLsbD k = true ∧ s.irq.enable.getLsbD k = true))

/-- REGISTER_WRITE of a register with no behaviour of its own: an RW register then reads the written value's stored bits,
every other register reads as before, nothing but the fields of those registers changes, and a write of any other offset
changes nothing (R189, R190). The bits are those of Tables 10-3, 10-5 and 10-7. -/
def Obligations.RegisterWriteReadsBack : Prop :=
  ∀ (s : State) (b : Bus) (off : BitVec 7) (v : Reg16), Taken s b → off ∉ ownBehaviourOffsets →
    let u := s.eventStartBy b.together
    let rw : List (BitVec 7 × Reg16) :=
      [(0x0C#7, 0x0001#16), (0x10#7, 0x0F3F#16), (0x11#7, 0xFFFF#16), (0x12#7, 0x003F#16), (0x13#7, 0xFFFF#16),
       (0x14#7, 0xFFFF#16), (0x15#7, 0xFFFF#16), (0x16#7, 0xFFFF#16), (0x20#7, 0x3FFF#16), (0x21#7, 0x3FFF#16),
       (0x22#7, 0x8777#16), (0x32#7, 0x01FF#16), (0x36#7, 0x01FF#16), (0x39#7, 0xFFFF#16), (0x40#7, 0xFFFF#16),
       (0x41#7, 0x000F#16), (0x42#7, 0xFFFF#16), (0x43#7, 0x000F#16), (0x44#7, 0xFFFF#16), (0x45#7, 0xFFFF#16),
       (0x51#7, 0x0F3F#16)]
    ∃ t, exec (.registerWrite b off v) s = .next t ∧
      (∀ m, (off, m) ∈ rw → t.regRead off = v &&& m) ∧
      (∀ other, other ≠ off → t.regRead other = u.regRead other) ∧
      t =
        { u with
          cfg := { u.cfg with logging := t.cfg.logging }
          ppt := { u.ppt with
            reqOp := t.ppt.reqOp, reqAddr := t.ppt.reqAddr, reqOpA := t.ppt.reqOpA, reqOpB := t.ppt.reqOpB }
          acu := { u.acu with rgnFirst := t.acu.rgnFirst, rgnLast := t.acu.rgnLast, rgnRights := t.acu.rgnRights }
          sp0 := { u.sp0 with beatTimeout := t.sp0.beatTimeout, suspendOnFault := t.sp0.suspendOnFault }
          sp1 := { u.sp1 with beatTimeout := t.sp1.beatTimeout, suspendOnFault := t.sp1.suspendOnFault }
          sce := { u.sce with
            regInterval := t.sce.regInterval, regFillFirst := t.sce.regFillFirst, regFillLast := t.sce.regFillLast
            regFillPattern := t.sce.regFillPattern }
          irq := { u.irq with enable := t.irq.enable } } ∧
      ((∀ m, (off, m) ∉ rw) → t = u)

/-- An access without chip select, with both strobes asserted at its taking event, with the read strobe asserted while the
write strobe was, or whose strobe was asserted before the release of RESET is not taken: it reads and writes nothing
(R188, R199). -/
def Obligations.UntakenAccessChangesNothing : Prop :=
  ∀ (s : State) (b : Bus), s.resetAsserted = false →
    (b.chipSelect = false ∨ b.otherStrobe = true ∨ b.crossed = true ∨ b.sinceRelease = false) →
    (∀ v, exec (.reqSubmit b v) s = .next s ∧ exec (.cfgMemsizeWrite b v) s = .next s ∧
      exec (.cfgPrescaleWrite b v) s = .next s ∧ exec (.cfgWatermarksWrite b v) s = .next s ∧
      exec (.cfgProtectWrite b v) s = .next s ∧ exec (.irqPendingWrite b v) s = .next s ∧
      ∀ off, exec (.registerWrite b off v) s = .next s) ∧
    exec (.ctrlStatusRead b) s = .next s ∧ exec (.cplPop b) s = .next s ∧
    (∀ arg, exec (.run b arg) s = .next s ∧ exec (.halt b arg) s = .next s ∧ exec (.portEnable b arg) s = .next s ∧
      exec (.portDisable b arg) s = .next s ∧ exec (.portReset b arg) s = .next s ∧
      exec (.portResume b arg) s = .next s ∧ exec (.loadRegion b arg) s = .next s ∧
      exec (.viewRegion b arg) s = .next s ∧ exec (.viewEntry b arg) s = .next s ∧
      exec (.resolveDiscard b arg) s = .next s ∧ exec (.resolveForce b arg) s = .next s ∧
      exec (.scrubStart b arg) s = .next s ∧ exec (.scrubStop b arg) s = .next s ∧
      exec (.fillStart b arg) s = .next s ∧ exec (.fillStop b arg) s = .next s ∧ exec (.logPop b arg) s = .next s ∧
      exec (.logClearOverflow b arg) s = .next s ∧ exec (.clearCounts b arg) s = .next s ∧
      ∀ code, exec (.unknownCommand b code arg) s = .next s)

/-! ### Direct commands: the controller -/

/-- RUN moves a HALTED controller to RUNNING with DONE, and is refused with REFUSED_STATE otherwise; it starts no scrub
(R103). HALT moves a RUNNING controller to QUIESCING, or to HALTED with HALT_DONE when the six quiesce conditions hold;
the scrub engine stops by its state; nothing else changes; in HALTED and QUIESCING it is refused (R104, R105, R171). -/
def Obligations.RunAndHalt : Prop :=
  (∀ (s : State) (b : Bus) (arg : BitVec 8), Taken s b →
    let u := s.eventStartBy b.together
    (u.ctl.state = .halted →
      exec (.run b arg) s =
        .next ({ u with ctl := { u.ctl with state := .running } }.answered .done 0x01#8)) ∧
    (u.ctl.state ≠ .halted → exec (.run b arg) s = .next (u.answered .refusedState 0x01#8))) ∧
  (∀ (s : State) (b : Bus) (arg : BitVec 8), Taken s b →
    let u := s.eventStartBy b.together
    (u.ctl.state ≠ .running → exec (.halt b arg) s = .next (u.answered .refusedState 0x02#8)) ∧
    (u.ctl.state = .running →
      ∃ t, exec (.halt b arg) s = .next t ∧ u.sameBut t [.ctl, .sce, .arb, .irq] ∧
        t.ctl = { u.ctl with state := t.ctl.state, cmdResult := .done, cmdCode := 0x02#8 } ∧
        (match u.sce.state with
         | .idle => t.sce = u.sce ∧ t.arb = u.arb
         | .patrolWait => t.sce = { u.sce with state := .idle, intervalDue := false } ∧ t.arb = u.arb
         | .patrolRequest => t.sce = { u.sce with state := .idle } ∧ t.arb = u.arb.scrubWithdrawn
         | .fillRequest =>
           t.sce = { u.sce with state := .idle, fillResult := .stopped } ∧ t.arb = u.arb.scrubWithdrawn
         | .patrolAccess | .fillAccess => t.sce = { u.sce with stopPending := true } ∧ t.arb = u.arb) ∧
        (QuiesceHolds { u with sce := t.sce } →
          t.ctl.state = .halted ∧ t.irq = { u.irq with haltDone := true }) ∧
        (¬ QuiesceHolds { u with sce := t.sce } → t.ctl.state = .quiescing ∧ t.irq = u.irq)))

/-! ### Direct commands: the stream ports -/

/-- PORT_ENABLE gives a DISABLED port 4 credits with CREDIT 4 and makes it ENABLED; PORT_RESUME makes a SUSPENDED port
ENABLED and keeps its cause; in the other states they are refused with REFUSED_STATE, and an argument above 1 with
REFUSED_ARGUMENT (R131, R134). -/
def Obligations.PortEnableAndResume : Prop :=
  ∀ (s : State) (b : Bus) (arg : BitVec 8), Taken s b →
    let u := s.eventStartBy b.together
    (2#8 ≤ arg →
      exec (.portEnable b arg) s = .next (u.answered .refusedArgument 0x08#8) ∧
      exec (.portResume b arg) s = .next (u.answered .refusedArgument 0x0B#8)) ∧
    (∀ p, NamesPort arg p →
      ((u.sp p).state = .disabled →
        exec (.portEnable b arg) s =
          .next ((u.setSp p
            { u.sp p with state := .enabled, credits := 4, outbound := (u.sp p).outbound ++ [.credit 4] }).answered
              .done 0x08#8)) ∧
      ((u.sp p).state ≠ .disabled → exec (.portEnable b arg) s = .next (u.answered .refusedState 0x08#8)) ∧
      ((u.sp p).state = .suspended →
        exec (.portResume b arg) s =
          .next ((u.setSp p { u.sp p with state := .enabled }).answered .done 0x0B#8)) ∧
      ((u.sp p).state ≠ .suspended → exec (.portResume b arg) s = .next (u.answered .refusedState 0x0B#8)))

/-- PORT_DISABLE answers the queued headers END ABORTED in order, sends CLOSE, sets the credits to 0, and leaves the port
DISABLING with its executing burst, or DISABLED; it is refused in DISABLED and DISABLING, and for an argument above 1
(R132). -/
def Obligations.PortDisable : Prop :=
  ∀ (s : State) (b : Bus) (arg : BitVec 8), Taken s b →
    let u := s.eventStartBy b.together
    (2#8 ≤ arg → exec (.portDisable b arg) s = .next (u.answered .refusedArgument 0x09#8)) ∧
    (∀ p, NamesPort arg p →
      ((u.sp p).state = .disabled ∨ (u.sp p).state = .disabling →
        exec (.portDisable b arg) s = .next (u.answered .refusedState 0x09#8)) ∧
      ((u.sp p).state = .enabled ∨ (u.sp p).state = .suspended →
        ((u.sp p).burst = none →
          exec (.portDisable b arg) s =
            .next ((u.setSp p
              { u.sp p with
                state := .disabled
                srq := []
                credits := 0
                outbound := (u.sp p).outbound ++ (u.sp p).srq.map (fun h => .endMsg h.tag .aborted 0) ++ [.close] }).answered
                  .done 0x09#8)) ∧
        (∀ x, (u.sp p).burst = some x →
          exec (.portDisable b arg) s =
            .next ((u.setSp p
              { u.sp p with
                state := .disabling
                srq := (u.sp p).srq.take 1
                credits := 0
                outbound :=
                  (u.sp p).outbound ++ ((u.sp p).srq.drop 1).map (fun h => .endMsg h.tag .aborted 0) ++
                  [.close] }).answered .done 0x09#8))))

/-- PORT_RESET, in every port state: END ABORTED for the executing burst and then for the queued headers, CLOSE, and the
port DISABLED with SPn_CONFIG kept; a waiting read is withdrawn, a read in flight is discarded, a held or waiting merge
write is withdrawn, a lock entry is removed, or cancelled in the array (R133). A beat waiting on the link is discarded;
the frames behind it stay (the model's choice, log 17). -/
def Obligations.PortReset : Prop :=
  ∀ (s : State) (b : Bus) (arg : BitVec 8), Taken s b →
    let u := s.eventStartBy b.together
    (2#8 ≤ arg → exec (.portReset b arg) s = .next (u.answered .refusedArgument 0x0A#8)) ∧
    (∀ p, NamesPort arg p →
      ∃ t, exec (.portReset b arg) s = .next t ∧
        t.ctl = { u.ctl with cmdResult := .done, cmdCode := 0x0A#8 } ∧
        t.sp p =
          { u.sp p with
            state := .disabled
            srq := []
            credits := 0
            burst := none
            cause := .none
            timer := 0
            expiryDue := false
            discardedRead := match (u.sp p).burst with
              | some x => if x.phase = .readAccess then some x.hdr.tag else (u.sp p).discardedRead
              | none => (u.sp p).discardedRead
            inbound := if u.beatOnLink p then (u.sp p).inbound.tail else (u.sp p).inbound
            outbound := match (u.sp p).burst with
              | some x =>
                (u.sp p).outbound ++ [.endMsg x.hdr.tag .aborted x.done] ++
                (u.sp p).srq.tail.map (fun h => .endMsg h.tag .aborted 0) ++ [.close]
              | none => (u.sp p).outbound ++ (u.sp p).srq.map (fun h => .endMsg h.tag .aborted 0) ++ [.close] } ∧
        ((u.sp p).burst = none → u.sameBut t [.ctl, spBlock p]) ∧
        (∀ x, (u.sp p).burst = some x →
          match x.phase with
          | .readWait =>
            t.arb = { u.arb with slots := u.arb.slots.put (portRequester p.port) none } ∧
            u.sameBut t [.ctl, spBlock p, .arb]
          | .merge =>
            t.mb =
              { u.mb with
                waiting := u.mb.waiting.filter (·.port != p.port), held := u.mb.held.filter (·.port != p.port) } ∧
            u.sameBut t [.ctl, spBlock p, .mb]
          | .locked => LockCancelled u t p ∧ u.sameBut t [.ctl, .sp0, .sp1, .wlt, .mb, .arb, .ppt]
          | .readHold | .readAccess | .beatWait | .admitHold | .operandWait | .operandBlocked =>
            u.sameBut t [.ctl, spBlock p]))

/-! ### Direct commands: regions, entries -/

/-- LOAD_REGION replaces descriptor n, and no other, with the staged fields, or is refused for n above 15 or a last block
below the first; VIEW_REGION copies descriptor n into the view registers, or is refused for n above 15 (R96, R98). -/
def Obligations.RegionCommands : Prop :=
  ∀ (s : State) (b : Bus) (arg : BitVec 8), Taken s b →
    let u := s.eventStartBy b.together
    (16#8 ≤ arg →
      exec (.loadRegion b arg) s = .next (u.answered .refusedArgument 0x10#8) ∧
      exec (.viewRegion b arg) s = .next (u.answered .refusedArgument 0x11#8)) ∧
    (∀ n : Fin 16, arg.toNat = n →
      (u.acu.rgnLast.toNat < u.acu.rgnFirst.toNat →
        exec (.loadRegion b arg) s = .next (u.answered .refusedArgument 0x10#8)) ∧
      (u.acu.rgnFirst.toNat ≤ u.acu.rgnLast.toNat →
        ∃ t, exec (.loadRegion b arg) s = .next (t.answered .done 0x10#8) ∧ u.sameBut t [.acu] ∧
          t.acu = { u.acu with regions := t.acu.regions } ∧
          (∀ m : Fin 16, m ≠ n → t.acu.regions[m] = u.acu.regions[m]) ∧
          t.acu.regions[n].first = u.acu.rgnFirst ∧ t.acu.regions[n].last = u.acu.rgnLast ∧
          t.acu.regions[n].enabled = u.acu.rgnRights.getLsbD 15 ∧
          t.acu.regions[n].pp =
            { r := u.acu.rgnRights.getLsbD 0, w := u.acu.rgnRights.getLsbD 1, a := u.acu.rgnRights.getLsbD 2 } ∧
          t.acu.regions[n].sp0 =
            { r := u.acu.rgnRights.getLsbD 4, w := u.acu.rgnRights.getLsbD 5, a := u.acu.rgnRights.getLsbD 6 } ∧
          t.acu.regions[n].sp1 =
            { r := u.acu.rgnRights.getLsbD 8, w := u.acu.rgnRights.getLsbD 9, a := u.acu.rgnRights.getLsbD 10 }) ∧
      (∃ rights : Reg16,
        exec (.viewRegion b arg) s =
          .next ({ u with
            acu := { u.acu with
              viewFirst := u.acu.regions[n].first, viewLast := u.acu.regions[n].last,
              viewRights := rights } }.answered .done 0x11#8) ∧
        Region.ofStaged u.acu.regions[n].first u.acu.regions[n].last rights = u.acu.regions[n] ∧
        rights &&& ~~~0x8777#16 = 0#16))

/-- VIEW_ENTRY copies entry e into the MBV registers as one snapshot and changes no entry; e above 7 is refused with the
registers unchanged (R50). -/
def Obligations.ViewEntry : Prop :=
  ∀ (s : State) (b : Bus) (arg : BitVec 8), Taken s b →
    let u := s.eventStartBy b.together
    (8#8 ≤ arg → exec (.viewEntry b arg) s = .next (u.answered .refusedArgument 0x18#8)) ∧
    (∀ e : Fin 8, arg.toNat = e →
      ∃ view : EntryView,
        exec (.viewEntry b arg) s = .next ({ u with mb := { u.mb with view := view } }.answered .done 0x18#8) ∧
        view.addr = (if (u.mb.entry e).state = .free then 0#20 else (u.mb.entry e).addr) ∧
        (∀ k < 32, view.data.getLsbD k = ((u.mb.entry e).mask.getLsbD (k / 8) && (u.mb.entry e).data.getLsbD k)) ∧
        (u.mb.agePosition e < 8 →
          view.state.extractLsb' 0 4 = BitVec.ofNat 4 (u.mb.entry e).state.code ∧
          view.state.extractLsb' 4 4 = (u.mb.entry e).mask ∧
          view.state.extractLsb' 8 3 = BitVec.ofNat 3 (u.mb.agePosition e) ∧
          view.state.getLsbD 11 = (u.mb.entry e).selected ∧ view.state.getLsbD 12 = (u.mb.entry e).forced ∧
          view.state.getLsbD 13 = (u.mb.entry e).flushBound ∧ view.state.getLsbD 14 = (u.mb.entry e).reopened ∧
          view.state.getLsbD 15 = (u.mb.entry e).resolvePending))

/-- RESOLVE_DISCARD frees FAULTED entry e with no write of the array, withdraws a resolve write that waits for it, and
keeps the faulted count of a FLUSH and the view registers; RESOLVE_FORCE fills its missing lanes with 00h and marks it
resolve-pending; both refuse e above 7 and an entry that is not FAULTED, the second also one that is resolve-pending
(R42, R43, R46, R50). -/
def Obligations.ResolveCommands : Prop :=
  ∀ (s : State) (b : Bus) (arg : BitVec 8), Taken s b →
    let u := s.eventStartBy b.together
    (8#8 ≤ arg →
      exec (.resolveDiscard b arg) s = .next (u.answered .refusedArgument 0x19#8) ∧
      exec (.resolveForce b arg) s = .next (u.answered .refusedArgument 0x1A#8)) ∧
    (∀ e : Fin 8, arg.toNat = e →
      ((u.mb.entry e).state ≠ .faulted →
        exec (.resolveDiscard b arg) s = .next (u.answered .refusedState 0x19#8) ∧
        exec (.resolveForce b arg) s = .next (u.answered .refusedState 0x1A#8)) ∧
      ((u.mb.entry e).state = .faulted →
        ∃ t, exec (.resolveDiscard b arg) s = .next (t.answered .done 0x19#8) ∧ u.sameBut t [.mb, .arb] ∧
          t.mb.entry e = Entry.default ∧ (∀ f, f ≠ e → t.mb.entry f = u.mb.entry f) ∧
          t.mb.age = u.mb.age.filter (· != e) ∧ t.mb.waiting = u.mb.waiting ∧ t.mb.held = u.mb.held ∧
          t.mb.faultedCount = u.mb.faultedCount ∧ t.mb.view = u.mb.view ∧
          (u.mb.drain = { phase := .resolveWait, entry := some e } →
            t.mb.drain = { phase := .idle, entry := none } ∧
            t.arb = { u.arb with slots := { u.arb.slots with dr := none } }) ∧
          (u.mb.drain ≠ { phase := .resolveWait, entry := some e } → t.mb.drain = u.mb.drain ∧ t.arb = u.arb)) ∧
      ((u.mb.entry e).state = .faulted → (u.mb.entry e).resolvePending = true →
        exec (.resolveForce b arg) s = .next (u.answered .refusedState 0x1A#8)) ∧
      ((u.mb.entry e).state = .faulted → (u.mb.entry e).resolvePending = false →
        ∃ x : Entry,
          exec (.resolveForce b arg) s =
            .next ({ u with mb := u.mb.setEntry e x }.answered .done 0x1A#8) ∧
          x = { u.mb.entry e with data := x.data, mask := 15#4, resolvePending := true } ∧
          ∀ k < 32, x.data.getLsbD k = ((u.mb.entry e).mask.getLsbD (k / 8) && (u.mb.entry e).data.getLsbD k)))

/-! ### Direct commands: the scrub engine -/

/-- SCRUB_START starts the patrol in RUNNING with the engine IDLE and SCR_INTERVAL not 0, the pointer kept: the state is
tested before the interval (R159). SCRUB_STOP, in every controller state: IDLE at once from PATROL_WAIT; the request
withdrawn and the bypass count 0 from PATROL_REQUEST; stop pending in PATROL_ACCESS; refused in IDLE and in fill mode. The
patrol pointer is kept in each (R164). -/
def Obligations.ScrubCommands : Prop :=
  (∀ (s : State) (b : Bus) (arg : BitVec 8), Taken s b →
    let u := s.eventStartBy b.together
    let ready := u.ctl.state = .running ∧ u.sce.state = .idle
    (¬ ready → exec (.scrubStart b arg) s = .next (u.answered .refusedState 0x20#8)) ∧
    (ready → u.sce.regInterval = 0#16 → exec (.scrubStart b arg) s = .next (u.answered .refusedArgument 0x20#8)) ∧
    (ready → u.sce.regInterval ≠ 0#16 →
      exec (.scrubStart b arg) s =
        .next ({ u with sce := { u.sce with state := .patrolWait, intervalCount := 0, lastMode := .patrol } }.answered
          .done 0x20#8))) ∧
  (∀ (s : State) (b : Bus) (arg : BitVec 8), Taken s b →
    let u := s.eventStartBy b.together
    exec (.scrubStop b arg) s =
      match u.sce.state with
      | .patrolWait => .next ({ u with sce := { u.sce with state := .idle, intervalDue := false } }.answered .done 0x21#8)
      | .patrolRequest =>
        .next ({ u with sce := { u.sce with state := .idle }, arb := u.arb.scrubWithdrawn }.answered .done 0x21#8)
      | .patrolAccess => .next ({ u with sce := { u.sce with stopPending := true } }.answered .done 0x21#8)
      | .idle | .fillRequest | .fillAccess => .next (u.answered .refusedState 0x21#8))

/-- FILL_START: the state, then the range, then the master's work in it are tested; when it is taken, the range and the
pattern are copied, the fill pointer stands at the first word, and its WRITE is requested (R165, R166). FILL_STOP
withdraws the request, or sets stop pending during a write, and is refused outside fill mode (R170). A read word that
waits behind a discarded read counts as work in the range (the model's choice, log 14). -/
def Obligations.FillCommands : Prop :=
  ∀ (s : State) (b : Bus) (arg : BitVec 8), Taken s b →
    let u := s.eventStartBy b.together
    let first := u.sce.regFillFirst
    let last := u.sce.regFillLast
    let stateOk := u.ctl.state = .running ∧ u.sce.state = .idle
    let rangeOk := first.toNat ≤ last.toNat ∧ last.toNat < 65536 * 2 ^ u.cfg.memsize.toNat
    let within := fun a : Addr => first.toNat ≤ a.toNat ∧ a.toNat ≤ last.toNat
    let portRead := fun r : Requester => r = .pp ∨ r = .sp0 ∨ r = .sp1
    let work :=
      (∃ e, (u.mb.entry e).state ≠ .free ∧ within (u.mb.entry e).addr) ∨
      (∃ m ∈ u.mb.waiting ++ u.mb.held, within m.addr) ∨ (∃ e ∈ u.wlt, within e.addr) ∨
      (∃ r q a, portRead r ∧ u.arb.slots.get r = some q ∧ q.addr = some a ∧ within a) ∨
      (∃ x, u.aif.access = some x ∧ portRead x.requester ∧ within x.addr)
    -- a read burst that waits for a discarded read before it makes its request (log 14)
    let owed := ∃ p x, (u.sp p).burst = some x ∧ x.phase = .readWait ∧ within x.word
    (¬ stateOk → exec (.fillStart b arg) s = .next (u.answered .refusedState 0x22#8)) ∧
    (stateOk → ¬ rangeOk → exec (.fillStart b arg) s = .next (u.answered .refusedArgument 0x22#8)) ∧
    (stateOk → rangeOk → work ∨ owed → exec (.fillStart b arg) s = .next (u.answered .refusedState 0x22#8)) ∧
    (stateOk → rangeOk → ¬ work → ¬ owed →
      exec (.fillStart b arg) s =
        .next ({ u with
          sce := { u.sce with
            state := .fillRequest, fillFirst := first, fillLast := last, fillPattern := u.sce.regFillPattern
            fillPtr := first, lastMode := .fill, fillResult := .running }
          arb := { u.arb with slots := { u.arb.slots with sc := some { kind := .write, addr := some first } } } }.answered
            .done 0x22#8)) ∧
    exec (.fillStop b arg) s =
      match u.sce.state with
      | .fillRequest =>
        .next ({ u with
          sce := { u.sce with state := .idle, fillResult := .stopped }, arb := u.arb.scrubWithdrawn }.answered .done 0x23#8)
      | .fillAccess => .next ({ u with sce := { u.sce with stopPending := true } }.answered .done 0x23#8)
      | .idle | .patrolWait | .patrolRequest | .patrolAccess => .next (u.answered .refusedState 0x23#8)

/-! ### Direct commands: the log and the counts -/

/-- LOG_POP copies the oldest record into the view registers as one snapshot and removes it, with DONE; an empty log
refuses it with REFUSED_STATE and nothing else changes; a record generated after the pop is kept (R178, R180). -/
def Obligations.LogPop : Prop :=
  ∀ (s : State) (b : Bus) (arg : BitVec 8), Taken s b →
    let u := s.eventStartBy b.together
    (u.elog.records = [] → exec (.logPop b arg) s = .next (u.answered .refusedState 0x28#8)) ∧
    (∀ r rest, u.elog.records = r :: rest →
      ∃ view : LogView,
        exec (.logPop b arg) s =
          .next ({ u with elog := { u.elog with records := rest, view := view } }.answered .done 0x28#8) ∧
        view.seq = r.seq ∧ view.addr = r.addr ∧
        view.kind = BitVec.ofNat 16 (r.kind.code + 256 * r.source.code) ∧ view.detail = r.detail) ∧
    (∀ t r rest, exec (.logPop b arg) s = .next t → u.elog.records = r :: rest → rest.length < 8 →
      ∀ x, (t.logRecord x).elog.records = rest ++ [{ x with seq := u.elog.seq }])

/-- LOG_CLEAR_OVERFLOW clears the flag whatever it holds and changes no record, no count and no sequence number; a log
still full sets the flag again at its next drop (R179). -/
def Obligations.LogClearOverflow : Prop :=
  ∀ (s : State) (b : Bus) (arg : BitVec 8), Taken s b →
    let u := s.eventStartBy b.together
    exec (.logClearOverflow b arg) s =
      .next ({ u with elog := { u.elog with overflow := false } }.answered .done 0x29#8) ∧
    ∀ t : State, t.elog.records.length = 8 → ∀ r, (t.logRecord r).elog.overflow = true

/-- CLEAR_COUNTS sets both counts to 0 and changes nothing else of the log; after it a counted completion makes the count
1, and before it the completion's count is lost (R183). -/
def Obligations.ClearCounts : Prop :=
  ∀ (s : State) (b : Bus) (arg : BitVec 8), Taken s b →
    let u := s.eventStartBy b.together
    ∃ t, exec (.clearCounts b arg) s = .next t ∧
      t = { u with elog := { u.elog with cntCorrected := 0#16, cntUncorrectable := 0#16 } }.answered .done 0x2A#8 ∧
      (∀ pos, (t.countOutcome (.corrected pos)).elog.cntCorrected = 1#16) ∧
      (t.countOutcome .uncorrectable).elog.cntUncorrectable = 1#16

/-- A COMMAND write whose code is none of Table 10-9 changes COMMAND_RESULT alone, to UNKNOWN and the code (R194); and
whatever a direct command answers but DONE, it has changed COMMAND_RESULT alone, with the code written (R107). Each
command row is its code's COMMAND write; that UNKNOWN_COMMAND with a code that names a command acts as that command is
the model's choice (log 19). -/
def Obligations.CommandResults : Prop :=
  (∀ (s : State) (b : Bus) (code arg : BitVec 8), Taken s b → code ∉ commandCodes →
      exec (.unknownCommand b code arg) s = .next ((s.eventStartBy b.together).answered .unknown code)) ∧
  (∀ (s : State) (b : Bus) (code arg : BitVec 8), Taken s b →
      let u := s.eventStartBy b.together
      ∃ t, exec (.unknownCommand b code arg) s = .next t ∧ t.ctl.cmdCode = code ∧ t.ctl.cmdResult ≠ .none ∧
        (t.ctl.cmdResult ≠ .done → t = u.answered t.ctl.cmdResult code) ∧
        (code = 0x01#8 → exec (.run b arg) s = .next t) ∧ (code = 0x02#8 → exec (.halt b arg) s = .next t) ∧
        (code = 0x08#8 → exec (.portEnable b arg) s = .next t) ∧ (code = 0x09#8 → exec (.portDisable b arg) s = .next t) ∧
        (code = 0x0A#8 → exec (.portReset b arg) s = .next t) ∧ (code = 0x0B#8 → exec (.portResume b arg) s = .next t) ∧
        (code = 0x10#8 → exec (.loadRegion b arg) s = .next t) ∧ (code = 0x11#8 → exec (.viewRegion b arg) s = .next t) ∧
        (code = 0x18#8 → exec (.viewEntry b arg) s = .next t) ∧
        (code = 0x19#8 → exec (.resolveDiscard b arg) s = .next t) ∧
        (code = 0x1A#8 → exec (.resolveForce b arg) s = .next t) ∧
        (code = 0x20#8 → exec (.scrubStart b arg) s = .next t) ∧ (code = 0x21#8 → exec (.scrubStop b arg) s = .next t) ∧
        (code = 0x22#8 → exec (.fillStart b arg) s = .next t) ∧ (code = 0x23#8 → exec (.fillStop b arg) s = .next t) ∧
        (code = 0x28#8 → exec (.logPop b arg) s = .next t) ∧
        (code = 0x29#8 → exec (.logClearOverflow b arg) s = .next t) ∧
        (code = 0x2A#8 → exec (.clearCounts b arg) s = .next t))

/-! ### The links -/

/-- HEADER: answered END ABORTED in DISABLED and DISABLING; in ENABLED and SUSPENDED refused by the first failing arrival
test with END PROTOCOL, CREDIT 1 but for cause CREDIT, a record and suspension, or queued against a credit; behind a frame
that waits on the link it waits (R125, R137 to R140, R196). A frame that began before the release of RESET is not taken
(R199). -/
def Obligations.HeaderArrival : Prop :=
  ∀ (s : State) (p : SpId) (f : Frame), s.resetAsserted = false → frameType f = 1#4 →
    let u := s.eventStart
    let sp := u.sp p
    exec (.header p ⟨f, false⟩) s = .next s ∧
    (sp.inbound ≠ [] → ∃ t, exec (.header p ⟨f, true⟩) s = .next t ∧ JoinsLink u t p f) ∧
    (sp.inbound = [] → ∃ t, exec (.header p ⟨f, true⟩) s = .next t ∧ HeaderTaken u t p f)

/-- WRITE_BEAT: the next data or operand beat of the burst that awaits beats and carries its tag, or discarded; a beat the
port is not ready for waits on the link, and so does one behind another frame (R57, R125, R127, R146, R147, R150, R168). A
beat that comes together with the release of held requests is taken before them (R64), which an operand says (the model's
form of it, log 18). A frame that began before the release of RESET is not taken (R199). The first frame that waits on the
link is due as soon as it is no beat that the port is not ready for; it is then taken as at its arrival, and the rest wait
on in order, the burst in OPERAND_BLOCKED when the next of them is its last operand and must wait (R125, R146, R150). That
a waiting writer which can be served, or any other due event, may come before it is the model's order (logs 3 and 16). -/
def Obligations.WriteBeatArrival : Prop :=
  (∀ (s : State) (p : SpId) (f : Frame) (together : Bool), s.resetAsserted = false → frameType f = 2#4 →
    let u := if together then s.eventTogether else s.eventStart
    let sp := u.sp p
    let answers := fun t => exec (.writeBeat p ⟨f, true⟩ together) s = .next t
    exec (.writeBeat p ⟨f, false⟩ together) s = .next s ∧
    (sp.inbound ≠ [] → ∃ t, answers t ∧ JoinsLink u t p f) ∧
    (sp.inbound = [] →
      (BeatWaits u p f →
        ∃ t, answers t ∧ JoinsLink u t p f ∧
          ∀ b, sp.burst = some b → b.phase ≠ .merge → (t.sp p).burst = some { b with phase := .operandBlocked }) ∧
      (¬ BeatWaits u p f → ∃ t, answers t ∧ BeatTaken u t p f))) ∧
  (∀ (s : State) (p : SpId),
    Due.linkTake p ∈ s.due ↔ Ready s ∧ ∃ f rest, (s.sp p).inbound = f :: rest ∧ ¬ BeatWaits s p f) ∧
  (∀ (s : State) (p : SpId) (f : Frame) (rest : List Frame), (s.sp p).inbound = f :: rest → ¬ BeatWaits s p f →
    let v := s.setSp p { s.sp p with inbound := rest }
    ∃ t, FrameTaken v t p f ∧ (t.sp p).inbound = rest ∧
      ((∀ g more b, rest = g :: more → (t.sp p).burst = some b → b.phase = .operandWait → ¬ BeatWaits t p g) →
        s.fire (.linkTake p) = t) ∧
      (∀ g more b, rest = g :: more → (t.sp p).burst = some b → b.phase = .operandWait → BeatWaits t p g →
        s.fire (.linkTake p) = t.setSp p { t.sp p with burst := some { b with phase := .operandBlocked } }))

/-- ABORT: on the executing burst with its tag it acts by the phase; else it removes the oldest queued header with its
tag, answered END ABORTED; else it is ignored (R154, R155, R27, R69, R70). A frame of type 0 or 4 to 15 is discarded
with no effect (R195). Behind a frame that waits on the link either waits (R125). An ABORT that reaches the part
together with a grant may be taken before it (R82); that it then begins before the grant, which an operand says, is the
model's choice (log 18). A frame that began before the release of RESET is not taken (R199). -/
def Obligations.AbortAndDiscardedFrames : Prop :=
  ∀ (s : State) (p : SpId) (f : Frame) (together : Bool), s.resetAsserted = false →
    let u := s.eventStartBy together
    let sp := u.sp p
    exec (.abort p ⟨⟨f, false⟩, together⟩) s = .next s ∧ exec (.discardedFrame p ⟨f, false⟩) s = .next s ∧
    (frameType f = 3#4 → sp.inbound ≠ [] →
      ∃ t, exec (.abort p ⟨⟨f, true⟩, together⟩) s = .next t ∧ JoinsLink u t p f) ∧
    (frameType f = 3#4 → sp.inbound = [] →
      ∃ t, exec (.abort p ⟨⟨f, true⟩, together⟩) s = .next t ∧ AbortTaken u t p f) ∧
    (frameType f = 0#4 ∨ 4#4 ≤ frameType f →
      let v := s.eventStart
      ((v.sp p).inbound = [] → exec (.discardedFrame p ⟨f, true⟩) s = .next v) ∧
      ((v.sp p).inbound ≠ [] → ∃ t, exec (.discardedFrame p ⟨f, true⟩) s = .next t ∧ JoinsLink v t p f))

/-! ### Checks and dispatch -/

/-- The verdicts: alignment, then the address limit, then the rights of the lowest-numbered enabled descriptor over the
word, in this order; a FLUSH passes; a stream header is refused whole, at its first word for its address and at its lowest
refused word for its rights (R86 to R93). -/
def Obligations.AccessVerdicts : Prop :=
  ∀ s : State,
    let size := 65536 * 2 ^ s.cfg.memsize.toNat
    let within := fun (n : Fin 16) (w : Addr) =>
      s.acu.regions[n].enabled = true ∧ s.acu.regions[n].first.toNat ≤ w.toNat / 64 ∧
      w.toNat / 64 ≤ s.acu.regions[n].last.toNat
    let granted := fun (q : Port) (k : AccessType) (w : Addr) =>
      ∃ n : Fin 16, within n w ∧ (∀ m : Fin 16, m < n → ¬ within m w) ∧
        (s.acu.regions[n].rightsOf q).grants k = true
    (∀ r : PpRequest,
      let w := wordOf r.addr
      let misaligned := (r.size = .half ∧ r.addr.toNat % 2 ≠ 0) ∨
        ((r.size = .word ∨ r.size = .noSize) ∧ r.addr.toNat % 4 ≠ 0)
      (r.op = .flush → s.ppVerdict r = .pass) ∧
      (r.op ≠ .flush → misaligned → s.ppVerdict r = .fault .alignFault w) ∧
      (r.op ≠ .flush → ¬ misaligned → size ≤ w.toNat → s.ppVerdict r = .fault .addressFault w) ∧
      (r.op ≠ .flush → ¬ misaligned → w.toNat < size →
        (s.cfg.protect = false ∨ granted .pp r.op.access w → s.ppVerdict r = .pass) ∧
        (s.cfg.protect = true → ¬ granted .pp r.op.access w → s.ppVerdict r = .fault .regionFault w))) ∧
    (∀ (p : SpId) (h : Header), 1 ≤ h.length →
      let word := fun i : Nat => h.addr + BitVec.ofNat 20 i
      (size ≤ h.addr.toNat + h.length - 1 → s.streamVerdict p h = .fault .addressFault h.addr) ∧
      (h.addr.toNat + h.length - 1 < size →
        (s.cfg.protect = false ∨ (∀ i < h.length, granted p.port h.op.access (word i)) →
          s.streamVerdict p h = .pass) ∧
        (∀ i < h.length, s.cfg.protect = true → ¬ granted p.port h.op.access (word i) →
          (∀ j < i, granted p.port h.op.access (word j)) →
          s.streamVerdict p h = .fault .regionFault (word i))))

/-- PRQ_DISPATCH, in RUNNING with no request executing and fewer than 8 completion records: the head leaves the PRQ; a
fault verdict completes it at once with the verdict's status, its record and data 0; a FLUSH marks the entries; a fenced
word holds the request, and any other goes on to its lock hold and its execution (R115, R116, R99, R100, R121, R45,
R168). In every other state, and so in HALTED and QUIESCING (R102), the row changes nothing (the model's choice, log
20). -/
def Obligations.PrqDispatch : Prop :=
  (∀ s : State, s.ctl.state ≠ .running ∨ s.ppt.exec ≠ none ∨ 8 ≤ s.ppt.cq.length ∨ s.ppt.prq = [] →
    exec .prqDispatch s = .next s) ∧
  (faultCplStatus .alignFault = .alignFault ∧ faultCplStatus .addressFault = .addressFault ∧
   faultCplStatus .regionFault = .regionFault) ∧
  ∀ (s : State) (r : PpRequest) (rest : List PpRequest), Ready s → s.ctl.state = .running → s.ppt.exec = none →
    s.ppt.cq.length < 8 → s.ppt.prq = r :: rest →
    let executing := fun ph => { s with ppt := { s.ppt with prq := rest, exec := some { req := r, phase := ph } } }
    (∀ k a, s.ppVerdict r = .fault k a →
      ∃ t, exec .prqDispatch s = .next t ∧ s.sameBut t [.ppt, .elog] ∧
        t.ppt =
          { s.ppt with
            prq := rest
            cq := s.ppt.cq ++ [{ tag := r.tag, op := r.op, status := faultCplStatus k, data := 0#32 }] } ∧
        t.elog =
          (s.logRecord
            { ErrorRecord.base k .pp a with access := some r.op.access, tag := some r.tag }).elog) ∧
    (s.ppVerdict r = .pass → r.op = .flush →
      ∃ t, exec .prqDispatch s = .next t ∧
        t = { executing .flushing with
          mb := { s.mb with entries := t.mb.entries, faultedCount := t.mb.faultedCount } } ∧
        t.mb.faultedCount = s.mb.count (fun e => e.state == .faulted) ∧
        ∀ e,
          ((s.mb.entry e).state = .free ∨ (s.mb.entry e).state = .faulted → t.mb.entry e = s.mb.entry e) ∧
          ((s.mb.entry e).state = .pending ∨ (s.mb.entry e).state = .reading →
            t.mb.entry e = { s.mb.entry e with flushBound := true, flushCarry := false }) ∧
          ((s.mb.entry e).state = .writing →
            t.mb.entry e = { s.mb.entry e with flushBound := true, flushCarry := (s.mb.entry e).reopened })) ∧
    (s.ppVerdict r = .pass → r.op ≠ .flush →
      (s.fenced (wordOf r.addr) = true → exec .prqDispatch s = .next (executing .fenceHold)) ∧
      (s.fenced (wordOf r.addr) = false →
        exec .prqDispatch s = .next ((executing .fenceHold).ppLockStep r)))

/-- The word of a byte address is the address div 4 (R3). A processor request past its fence: a READ is held by a lock
entry, or served from the buffer, or asks for an array READ, as its lookup answers; a WRITE issues its merge write; an
atomic is held by a lock entry for its word or of port PP, or creates its own (R116, R117, R119, R120, R29, R56, R64,
Table 1-2a). -/
def Obligations.ProcessorRequestGoesOn : Prop :=
  (∀ a : ByteAddr, (wordOf a).toNat = a.toNat / 4) ∧
  ∀ (s : State) (x : PpExec), s.ppt.exec = some x →
    let r := x.req
    let w := wordOf r.addr
    let low := r.addr.toNat % 4
    let at' := fun ph => { s with ppt := { s.ppt with exec := some { x with phase := ph } } }
    LookupServes s w (laneMaskOf r.size r.addr) ∧
    (r.op = .read → s.locked w = true → s.ppLockStep r = at' .lockHold) ∧
    (r.op = .read → s.locked w = false →
      (∀ d, s.mbLookup w (laneMaskOf r.size r.addr) = some d →
        s.ppLockStep r =
          { s with ppt := { s.ppt with
              exec := none
              cq := s.ppt.cq ++ [{ tag := r.tag, op := .read, status := .ok, data := readResult r.size r.addr d }] } }) ∧
      (s.mbLookup w (laneMaskOf r.size r.addr) = none →
        s.ppLockStep r =
          { at' .readWait with
            arb := { s.arb with slots := { s.arb.slots with pp := some { kind := .read, addr := some w } } } })) ∧
    (r.op = .write →
      ∃ m : MergeWrite, s.ppLockStep r = (at' .merge).mergeIssue m ∧ m.port = .pp ∧ m.addr = w ∧
        (r.size = .word → m.mask = 0b1111#4 ∧ m.data = r.opA) ∧
        (r.size = .half → low = 0 → m.mask = 0b0011#4 ∧ m.data.extractLsb' 0 16 = r.opA.extractLsb' 0 16) ∧
        (r.size = .half → low = 2 → m.mask = 0b1100#4 ∧ m.data.extractLsb' 16 16 = r.opA.extractLsb' 0 16) ∧
        (r.size = .byte →
          m.mask = 1#4 <<< low ∧ (m.data >>> (8 * low)).extractLsb' 0 8 = r.opA.extractLsb' 0 8)) ∧
    (∀ op, r.op = .atomic op →
      (s.locked w = true ∨ s.hasLock .pp = true → s.ppLockStep r = at' .lockHold) ∧
      (s.locked w = false → s.hasLock .pp = false →
        s.ppLockStep r =
          (at' .locked).createLock
            { port := .pp, tag := r.tag, addr := w, op := op, opA := r.opA
              opB := if op = .compareSwap then some r.opB else none
              state := .waitTurn, cancelled := false })) ∧
    (∀ a d, readResult .byte a d = ((d >>> (8 * (a.toNat % 4))) &&& 0xFF#32) ∧
      (a.toNat % 4 = 0 → readResult .half a d = (d &&& 0xFFFF#32)) ∧
      (a.toNat % 4 = 2 → readResult .half a d = d >>> 16) ∧ readResult .word a d = d)

/-- SRQ_DISPATCH, in RUNNING with the port ENABLED and no burst executing: the head header becomes the burst; a fault
verdict ends it at once with END of the verdict's status, CREDIT 1 and its record, and suspends the port while
suspend-on-fault is on; a READ takes up its first word; a WRITE sends DATA_REQUEST and awaits its beats; an atomic goes
to its admission (R142, R99, R100, R146). In every other state, and so in HALTED and QUIESCING (R102), the row changes
nothing (the model's choice, log 20). -/
def Obligations.SrqDispatch : Prop :=
  (∀ (s : State) (p : SpId),
    s.ctl.state ≠ .running ∨ (s.sp p).state ≠ .enabled ∨ (s.sp p).burst ≠ none ∨ (s.sp p).srq = [] →
    exec (.srqDispatch p) s = .next s) ∧
  (faultEndStatus .addressFault = .addressFault ∧ faultEndStatus .regionFault = .regionFault) ∧
  ∀ (s : State) (p : SpId) (h : Header) (rest : List Header), Ready s → s.ctl.state = .running →
    (s.sp p).state = .enabled → (s.sp p).burst = none → (s.sp p).srq = h :: rest →
    let started := s.setSp p { s.sp p with burst := some h.start }
    (∀ k a, s.streamVerdict p h = .fault k a →
      ∃ t, exec (.srqDispatch p) s = .next t ∧ s.sameBut t [spBlock p, .elog] ∧
        ((s.sp p).suspendOnFault = false → t.sp p = (s.sp p).ended h.tag (faultEndStatus k) 0) ∧
        ((s.sp p).suspendOnFault = true → t.sp p = ((s.sp p).ended h.tag (faultEndStatus k) 0).stopped .fault) ∧
        t.elog =
          (s.logRecord
            { ErrorRecord.base k (portSource p.port) a with access := some h.op.access, tag := some h.tag }).elog) ∧
    (s.streamVerdict p h = .pass →
      (h.op = .read → exec (.srqDispatch p) s = .next (started.readOn p)) ∧
      (h.op = .write →
        exec (.srqDispatch p) s =
          .next (s.setSp p
            { s.sp p with
              burst := some { h.start with phase := .beatWait }
              timer := 0
              expiryDue := false
              outbound := (s.sp p).outbound ++ [.dataRequest h.tag] })) ∧
      (∀ op, h.op = .atomic op → exec (.srqDispatch p) s = .next (started.admitAtomic p)))

/-- A burst's current word is its first word plus its done count (Table 7-4), and a read burst takes up at most its 16
words at one event. A read burst takes up its current word: held at the fence, else by a lock entry, else served from
the buffer with a CLEAN READ_BEAT and on to the next word, END OK after the last, else asking for an array READ, at once
or after a discarded read (R29, R143, R145, R133); that a burst waiting for the discarded read stands in READ_WAIT
without a request is the model's reading (log 13). An atomic at its admission: held at the fence, else by a lock entry,
else DATA_REQUEST and OPERAND_WAIT, or OPERAND_BLOCKED when its last operand already waits behind the port's own lock
entry (R150). -/
def Obligations.StreamWordTakenUp : Prop :=
  (∀ (s : State) (p : SpId), s.readOn p = State.readWords 16 p s) ∧
  (∀ b : Burst, b.word.toNat = (b.hdr.addr.toNat + b.done) % 2 ^ 20) ∧
  ∀ (s : State) (p : SpId) (b : Burst), (s.sp p).burst = some b →
    let sp := s.sp p
    let burst := fun x : Burst => s.setSp p { sp with burst := some x }
    LookupServes s b.word 0b1111#4 ∧
    (∀ n,
      let go := State.readWords (n + 1) p s
      (s.fenced b.word = true → go = burst { b with phase := .readHold, hold := .fence }) ∧
      (s.fenced b.word = false → s.locked b.word = true → go = burst { b with phase := .readHold, hold := .lock }) ∧
      (s.fenced b.word = false → s.locked b.word = false →
        (s.mbLookup b.word 0b1111#4 = none →
          (sp.discardedRead = none →
            go = { burst { b with phase := .readWait, hold := .none } with
              arb := { s.arb with
                slots := s.arb.slots.put (portRequester p.port) (some { kind := .read, addr := some b.word }) } }) ∧
          (sp.discardedRead ≠ none → go = burst { b with phase := .readWait, hold := .none })) ∧
        (∀ d, s.mbLookup b.word 0b1111#4 = some d →
          let sent := { sp with
            burst := some { b with done := b.done + 1 }
            outbound := sp.outbound ++ [.readBeat b.hdr.tag d .clean] }
          (b.done + 1 = b.hdr.length → go = s.setSp p (sent.ended b.hdr.tag .ok (b.done + 1))) ∧
          (b.done + 1 ≠ b.hdr.length → go = State.readWords n p (s.setSp p sent))))) ∧
    (s.fenced b.hdr.addr = true → s.admitAtomic p = burst { b with phase := .admitHold, hold := .fence }) ∧
    (s.fenced b.hdr.addr = false → s.locked b.hdr.addr = true →
      s.admitAtomic p = burst { b with phase := .admitHold, hold := .lock }) ∧
    (s.fenced b.hdr.addr = false → s.locked b.hdr.addr = false →
      let admitted := fun ph =>
        s.setSp p
          { sp with
            burst := some { b with phase := ph, hold := .none, beat := none }
            timer := 0
            expiryDue := false
            outbound := sp.outbound ++ [.dataRequest b.hdr.tag] }
      let operandWaits :=
        (∃ f rest, sp.inbound = f :: rest ∧ frameType f = 2#4 ∧ beatTag f = b.hdr.tag) ∧
        (b.hdr.op ≠ .atomic .compareSwap ∨ b.opA ≠ none) ∧ s.hasLock p.port = true
      (operandWaits → s.admitAtomic p = admitted .operandBlocked) ∧
      (¬ operandWaits → s.admitAtomic p = admitted .operandWait))

/-! ### The arbiter -/

/-- The winner by tier and ring: the ring is PP, SP0, SP1, DR, AE, with SC after AE in fill mode, and begins at the
pointer, where SC counts as PP outside fill mode. ARRAY_GRANT: the winner's slot empties, the pointer moves past a
tier-3 winner and no other, the bypass count follows, the access begins, and its owner acts on the grant (R76 to R81,
R83, R36, R44, R60, R161, R167). That the entry granted a WRITE keeps its selected flag is the model's reading (log 15).
While the interface is not IDLE or no request can win the row changes nothing (R76; the model's choice, log 20); so too
while the end of quiesce is due, which comes first (R105, log 3), and at a return to IDLE while other events are due,
which make their requests first (R76, log 3). The bypass count goes by the slots as they stand at the row; which requests
that arrive together stand in them is the model's choice (log 29). -/
def Obligations.ArrayGrant : Prop :=
  (∀ s : State,
    let ready := fun r => (s.arb.slots.get r).isSome = true ∧
      (s.ctl.state = .halted → r = .dr ∧ s.mb.drain.phase = .resolveWait)
    let urgent := s.cfg.hwm.toNat ≤ s.mb.count Entry.live
    let ring := ringFrom s.sce.state.fillMode s.arb.pointer
    (s.sce.state.fillMode = true ↔ s.sce.state = .fillRequest ∨ s.sce.state = .fillAccess) ∧
    (s.sce.state.patrolMode = true ↔
      s.sce.state = .patrolWait ∨ s.sce.state = .patrolRequest ∨ s.sce.state = .patrolAccess) ∧
    (ready .dr → urgent → s.winner = some (.dr, false)) ∧
    (¬ (ready .dr ∧ urgent) →
      (ready .sc → s.arb.bypass = 16 → s.winner = some (.sc, false)) ∧
      (¬ (ready .sc ∧ s.arb.bypass = 16) →
        (∀ before r after, ring = before ++ r :: after → ready r → (∀ x ∈ before, ¬ ready x) →
          s.winner = some (r, true)) ∧
        ((∀ r ∈ ring, ¬ ready r) →
          (ready .sc → s.sce.state.patrolMode = true → s.winner = some (.sc, false)) ∧
          (¬ (ready .sc ∧ s.sce.state.patrolMode = true) → s.winner = none))))) ∧
  ((ringFrom false .pp = [.pp, .sp0, .sp1, .dr, .ae] ∧ ringFrom false .sp0 = [.sp0, .sp1, .dr, .ae, .pp] ∧
    ringFrom false .sp1 = [.sp1, .dr, .ae, .pp, .sp0] ∧ ringFrom false .dr = [.dr, .ae, .pp, .sp0, .sp1] ∧
    ringFrom false .ae = [.ae, .pp, .sp0, .sp1, .dr] ∧ ringFrom false .sc = [.pp, .sp0, .sp1, .dr, .ae]) ∧
   (ringFrom true .pp = [.pp, .sp0, .sp1, .dr, .ae, .sc] ∧ ringFrom true .sp0 = [.sp0, .sp1, .dr, .ae, .sc, .pp] ∧
    ringFrom true .sp1 = [.sp1, .dr, .ae, .sc, .pp, .sp0] ∧ ringFrom true .dr = [.dr, .ae, .sc, .pp, .sp0, .sp1] ∧
    ringFrom true .ae = [.ae, .sc, .pp, .sp0, .sp1, .dr] ∧ ringFrom true .sc = [.sc, .pp, .sp0, .sp1, .dr, .ae]) ∧
   (∀ fill, ringNext fill .pp = .sp0 ∧ ringNext fill .sp0 = .sp1 ∧ ringNext fill .sp1 = .dr ∧ ringNext fill .dr = .ae) ∧
   ringNext false .ae = .pp ∧ ringNext true .ae = .sc ∧ ringNext true .sc = .pp) ∧
  (∀ s : State,
    s.aif.state ≠ .idle ∨ s.winner = none ∨ (s.ctl.state = .quiescing ∧ QuiesceHolds s) ∨
      (s.own.backToIdle = true ∧ s.dueWork ≠ []) →
    exec .arrayGrant s = .next s) ∧
  (∀ (s : State) (r : Requester) (tier3 : Bool) (q : Request), s.resetAsserted = false → s.aif.state = .idle →
    s.dueWork = [] ∨ s.own.backToIdle = false → ¬ (s.ctl.state = .quiescing ∧ QuiesceHolds s) →
    s.winner = some (r, tier3) → s.arb.slots.get r = some q →
    let begun := fun (st : AifState) (k : AccessKind) (a : Addr) (d : Option Word) =>
      ({ state := st
         access := some
          { kind := k, requester := r, addr := a, writeData := d, readData := none, outcome := none } } : Aif)
    ∃ t, exec .arrayGrant s = .next t ∧
      t.arb =
        { slots := s.arb.slots.put r none
          pointer := if tier3 then ringNext s.sce.state.fillMode r else s.arb.pointer
          bypass :=
            if s.arb.slots.sc = none then s.arb.bypass
            else if r = .sc then 0 else min (s.arb.bypass + 1) 16 } ∧
      (∀ a x, r = .pp → q.addr = some a → s.ppt.exec = some x →
        t = { s with
          arb := t.arb, aif := begun .reading .read a none
          ppt := { s.ppt with exec := some { x with phase := .readAccess } } }) ∧
      (∀ p a b, r = portRequester (SpId.port p) → q.addr = some a → (s.sp p).burst = some b →
        t = { s.setSp p { s.sp p with burst := some { b with phase := .readAccess } } with
          arb := t.arb, aif := begun .reading .read a none }) ∧
      (∀ e, r = .dr → s.mb.drain.entry = some e →
        let x := s.mb.entry e
        (s.mb.drain.phase = .readWait →
          t = { s with
            arb := t.arb, aif := begun .reading .read x.addr none
            mb := { s.mb.setEntry e { x with state := .reading } with
              drain := { phase := .readAccess, entry := some e } } }) ∧
        (s.mb.drain.phase = .writeWait →
          t = { s with
            arb := t.arb, aif := begun .writing .write x.addr (some x.data)
            mb := { s.mb.setEntry e { x with state := .writing, reopened := false } with
              drain := { phase := .writeAccess, entry := some e } } }) ∧
        (s.mb.drain.phase = .resolveWait →
          t = { s with
            arb := t.arb, aif := begun .writing .write x.addr (some x.data)
            mb := { s.mb.setEntry e { x with state := .writing, reopened := false, resolvePending := false } with
              drain := { phase := .resolveAccess, entry := some e } } })) ∧
      (∀ older e younger, r = .ae → s.wlt = older ++ e :: younger → e.state = .waitGrant →
        (∀ x ∈ older, x.state ≠ .waitGrant) →
        t.aif = begun .pairedRead .paired e.addr none ∧ s.sameBut t [.arb, .aif, .wlt] ∧
        t.wlt = s.wlt.map (fun x => if x.port = e.port then { x with state := .inArray } else x)) ∧
      (r = .sc → s.sce.state = .patrolRequest →
        t = { s with
          arb := t.arb, aif := begun .pairedRead .paired s.sce.patrolPtr none
          sce := { s.sce with state := .patrolAccess } }) ∧
      (r = .sc → s.sce.state = .fillRequest →
        t = { s with
          arb := t.arb, aif := begun .writing .write s.sce.fillPtr (some s.sce.fillPattern)
          sce := { s.sce with state := .fillAccess } }))

/-! ### The drain engine -/

/-- DRAIN_START: from IDLE with no resolve-pending entry and a trigger, in RUNNING or QUIESCING, the engine selects the
oldest PENDING entry of the best rank and asks for a WRITE of a full one and a READ of a partial one (R34, R35).
RESOLVE_WRITE_REQUEST: from IDLE, in every controller state, it asks for the WRITE of the oldest resolve-pending entry
(R44). In HALTED no drain starts (R34), nor with the engine not IDLE, a resolve-pending entry, no PENDING entry, or none
of R34's six triggers; the rows then change nothing (the model's choice, log 20). -/
def Obligations.DrainEngineStarts : Prop :=
  (∀ (mb : MergeBuffer) (test : Entry → Bool),
    mb.count test = ((List.finRange 8).filter fun e => test (mb.entry e)).length) ∧
  (∀ x : Entry, x.live = true ↔ x.state ≠ .free ∧ x.state ≠ .faulted) ∧
  (∀ s : State,
    (s.ctl.state = .halted ∨ s.mb.drain.phase ≠ .idle ∨ s.mb.resolveChoice ≠ none ∨
      (∀ e, (s.mb.entry e).state ≠ .pending) → exec .drainStart s = .next s) ∧
    (s.mb.count (fun f => f.state == .pending) < s.cfg.lwm.toNat → s.mb.count Entry.live < s.cfg.hwm.toNat →
      s.mb.waiting = [] → (∀ e, (s.mb.entry e).forced = false) → (∀ e, (s.mb.entry e).flushBound = false) →
      s.ctl.state ≠ .quiescing → exec .drainStart s = .next s) ∧
    (s.mb.drain.phase ≠ .idle ∨ s.mb.resolveChoice = none → exec .resolveWriteRequest s = .next s) ∧
    (s.mb.resolveChoice = none ↔
      ∀ e ∈ s.mb.age, ¬ ((s.mb.entry e).state = .faulted ∧ (s.mb.entry e).resolvePending = true))) ∧
  (∀ (s : State) (e : Fin 8), Ready s → s.mb.drain.phase = .idle → s.mb.resolveChoice = none →
    s.ctl.state ≠ .halted → (∃ f, (s.mb.entry f).state = .pending) →
    (s.cfg.lwm.toNat ≤ s.mb.count (fun f => f.state == .pending) ∨ s.cfg.hwm.toNat ≤ s.mb.count Entry.live ∨
     s.mb.waiting ≠ [] ∨ (∃ f, (s.mb.entry f).forced = true) ∨ (∃ f, (s.mb.entry f).flushBound = true) ∨
     s.ctl.state = .quiescing) →
    s.mb.drainChoice = some e →
    let x := s.mb.entry e
    (x.mask = 0b1111#4 →
      exec .drainStart s =
        .next { s with
          mb := { s.mb.setEntry e { x with selected := true } with drain := { phase := .writeWait, entry := some e } }
          arb := { s.arb with slots := { s.arb.slots with dr := some { kind := .write, addr := some x.addr } } } }) ∧
    (x.mask ≠ 0b1111#4 →
      exec .drainStart s =
        .next { s with
          mb := { s.mb.setEntry e { x with selected := true } with drain := { phase := .readWait, entry := some e } }
          arb := { s.arb with slots := { s.arb.slots with dr := some { kind := .read, addr := some x.addr } } } })) ∧
  (∀ (mb : MergeBuffer) (older younger : List (Fin 8)) (e : Fin 8), mb.age = older ++ e :: younger →
    (mb.entry e).state = .pending →
    (∀ f ∈ older, (mb.entry f).state = .pending → (mb.entry e).rank < (mb.entry f).rank) →
    (∀ f ∈ younger, (mb.entry f).state = .pending → (mb.entry e).rank ≤ (mb.entry f).rank) →
    mb.drainChoice = some e) ∧
  (∀ (s : State) (older younger : List (Fin 8)) (e : Fin 8), Ready s → s.mb.drain.phase = .idle →
    s.mb.age = older ++ e :: younger → (s.mb.entry e).state = .faulted → (s.mb.entry e).resolvePending = true →
    (∀ f ∈ older, (s.mb.entry f).state = .faulted → (s.mb.entry f).resolvePending = false) →
    exec .resolveWriteRequest s =
      .next { s with
        mb := { s.mb with drain := { phase := .resolveWait, entry := some e } }
        arb := { s.arb with
          slots := { s.arb.slots with dr := some { kind := .write, addr := some (s.mb.entry e).addr } } } })

/-! ### Holds, waiters and signals -/

/-- What holds: a lock entry for the word, a lock entry of the port (R54, R64), and the fence, from the fill pointer to
fill last while the engine is in fill mode (R168). LOCK_HOLD_RELEASE of a port: its held merge write is taken up as if
it had just arrived; else its held READ, read word or admission goes on, and a released processor atomic creates its
entry (R21, R64, R56). When the last entry for its word goes, a held processor atomic is released, and it then creates
its entry even behind one created meanwhile (R64; the step it stands at is the model's, log 24). FENCE_HOLD_RELEASE: a
port's held request goes on to its lock hold, and a held beat is issued (R168, R116, R143, R147, R150). While the word
is still locked, or still fenced, or nothing of the port is held so, the row changes nothing (R64, R168; the model's
choice, log 20). -/
def Obligations.HoldReleases : Prop :=
  (∀ s : State,
    (∀ w, s.locked w = true ↔ ∃ e ∈ s.wlt, e.addr = w) ∧ (∀ q, s.hasLock q = true ↔ ∃ e ∈ s.wlt, e.port = q) ∧
    (∀ w, s.fenced w = true ↔
      (s.sce.state = .fillRequest ∨ s.sce.state = .fillAccess) ∧ s.sce.fillPtr.toNat ≤ w.toNat ∧
      w.toNat ≤ s.sce.fillLast.toNat)) ∧
  (∀ s : State,
    ((∀ m ∈ s.mb.held, m.port = .pp → s.locked m.addr = true) →
      (∀ x, s.ppt.exec = some x →
        (x.phase ≠ .lockReleased ∧ (x.phase = .lockHold → s.locked (wordOf x.req.addr) = true)) ∨
        ((∃ op, x.req.op = .atomic op) ∧ s.hasLock .pp = true)) →
      exec (.lockHoldRelease .pp) s = .next s) ∧
    (∀ p : SpId, (∀ m ∈ s.mb.held, m.port = p.port → s.locked m.addr = true) →
      (∀ b, (s.sp p).burst = some b → b.hold ≠ .lock ∨ s.locked b.word = true) →
      exec (.lockHoldRelease p.port) s = .next s) ∧
    ((∀ x, s.ppt.exec = some x → x.phase ≠ .fenceHold ∨ s.fenced (wordOf x.req.addr) = true) →
      exec (.fenceHoldRelease .pp) s = .next s) ∧
    (∀ p : SpId, (∀ b, (s.sp p).burst = some b → b.hold ≠ .fence ∨ s.fenced b.word = true) →
      exec (.fenceHoldRelease p.port) s = .next s)) ∧
  (∀ (s : State) (w : Addr),
    (s.ppt.exec = none → s.releaseHeldAtomic w = s) ∧
    (∀ x, s.ppt.exec = some x →
      let held := x.phase = .lockHold ∧ (∃ op, x.req.op = .atomic op) ∧ wordOf x.req.addr = w
      (held →
        s.releaseHeldAtomic w = { s with ppt := { s.ppt with exec := some { x with phase := .lockReleased } } }) ∧
      (¬ held → s.releaseHeldAtomic w = s))) ∧
  ∀ s : State, s.resetAsserted = false →
    (∀ older m younger, s.mb.held = older ++ m :: younger → (∀ x ∈ older, x.port ≠ m.port) → s.locked m.addr = false →
      exec (.lockHoldRelease m.port) s =
        .next ({ s with mb := { s.mb with held := s.mb.held.filter (·.port != m.port) } }.mergeIssue m)) ∧
    (∀ x, s.ppt.exec = some x → (∀ m ∈ s.mb.held, m.port ≠ .pp) → s.locked (wordOf x.req.addr) = false →
      x.phase = .lockHold →
      (x.req.op = .read → exec (.lockHoldRelease .pp) s = .next (s.ppLockStep x.req)) ∧
      (∀ op, x.req.op = .atomic op → s.hasLock .pp = false →
        exec (.lockHoldRelease .pp) s = .next (s.ppLockStep x.req))) ∧
    (∀ x op, s.ppt.exec = some x → (∀ m ∈ s.mb.held, m.port ≠ .pp) → x.phase = .lockReleased → x.req.op = .atomic op →
      s.hasLock .pp = false →
      exec (.lockHoldRelease .pp) s =
        .next ({ s with ppt := { s.ppt with exec := some { x with phase := .locked } } }.createLock
          { port := .pp, tag := x.req.tag, addr := wordOf x.req.addr, op := op, opA := x.req.opA
            opB := if op = AtomicOp.compareSwap then some x.req.opB else none
            state := .waitTurn, cancelled := false })) ∧
    (∀ p b, (s.sp p).burst = some b → (∀ m ∈ s.mb.held, m.port ≠ SpId.port p) → b.hold = .lock →
      s.locked b.word = false →
      (b.phase = .readHold → exec (.lockHoldRelease p.port) s = .next (s.readOn p)) ∧
      (b.phase = .admitHold → exec (.lockHoldRelease p.port) s = .next (s.admitAtomic p))) ∧
    (s.nextWaiter = none →
      (∀ x, s.ppt.exec = some x → x.phase = .fenceHold → s.fenced (wordOf x.req.addr) = false →
        exec (.fenceHoldRelease .pp) s = .next (s.ppLockStep x.req)) ∧
      (∀ p b, (s.sp p).burst = some b → b.hold = .fence → s.fenced b.word = false →
        (b.phase = .readHold → exec (.fenceHoldRelease p.port) s = .next (s.readOn p)) ∧
        (b.phase = .admitHold → exec (.fenceHoldRelease p.port) s = .next (s.admitAtomic p)) ∧
        (∀ d m, b.phase = .merge → b.beat = some (d, m) →
          exec (.fenceHoldRelease p.port) s =
            .next
              ((s.setSp p { s.sp p with burst := some { b with hold := .none, beat := none } }).mergeIssue
                { port := p.port, addr := b.word, data := d, mask := m }))))

/-- WAITING_WRITER_ALLOCATION: the first waiter in the list whose word is not locked and has an entry, or finds a FREE
one, leaves the list and is treated as an arrival (R26). FORCED_DRAIN_SIGNAL: the oldest lock entry in WAIT_DRAIN whose
forced entry is gone enters WAIT_GRANT and the engine asks for its access; one whose entry has FAULTED is removed with
ENTRY_FAULTED (R59, R60). -/
def Obligations.WaitersAndSignals : Prop :=
  (∀ (s : State) (older younger : List MergeWrite) (m : MergeWrite), s.resetAsserted = false →
    s.mb.waiting = older ++ m :: younger → (∀ x ∈ older, x.port ≠ m.port) →
    let servable := fun x : MergeWrite =>
      s.locked x.addr = false ∧
      ∃ e, (s.mb.entry e).state = .free ∨ (s.mb.entry e).state ≠ .free ∧ (s.mb.entry e).addr = x.addr
    servable m → (∀ x ∈ older, ¬ servable x) → (∀ x ∈ younger, x.port ≠ m.port) →
    exec .waitingWriterAllocation s = .next ({ s with mb := { s.mb with waiting := older ++ younger } }.mergeIssue m)) ∧
  (∀ (s : State) (older younger : List LockEntry) (e : LockEntry), Ready s → s.wlt = older ++ e :: younger →
    e.state = .waitDrain →
    let gone := fun w : Addr => ∀ i, (s.mb.entry i).state ≠ .free → (s.mb.entry i).addr ≠ w
    (∀ x ∈ older, x.state = .waitDrain → ∃ i, s.mbAsk x.addr = .forced i) →
    (gone e.addr →
      ∃ t, exec .forcedDrainSignal s = .next t ∧ s.sameBut t [.wlt, .arb] ∧
        t.wlt = s.wlt.map (fun x => if x.port = e.port then { x with state := .waitGrant } else x) ∧
        AeFollows s t) ∧
    (s.mbAsk e.addr = .faulted →
      exec .forcedDrainSignal s =
        .next (s.removeLock e (some { status := .entryFaulted, old := 0#32, outcome := .clean }))))

/-- FLUSH_COMPLETION: with no entry flush-bound the FLUSH completes OK with data 0, or FLUSH_FAULTED with the faulted
count as data, and the count returns to 0 (R46, R121). QUIESCE_COMPLETE: in QUIESCING with the six conditions the
controller enters HALTED and HALT_DONE is set (R105). While an entry is flush-bound, or no FLUSH is in progress, or a
condition fails, the row changes nothing (R46, R105; the model's choice, log 20). -/
def Obligations.FlushAndQuiesceComplete : Prop :=
  (∀ s : State,
    ((∃ e, (s.mb.entry e).flushBound = true) ∨ (∀ x, s.ppt.exec = some x → x.phase ≠ .flushing) →
      exec .flushCompletion s = .next s) ∧
    (s.ctl.state ≠ .quiescing ∨ ¬ QuiesceHolds s → exec .quiesceComplete s = .next s)) ∧
  (∀ (s : State) (x : PpExec), Ready s → s.ppt.exec = some x → x.phase = .flushing →
    (∀ e, (s.mb.entry e).flushBound = false) →
    exec .flushCompletion s =
      .next { s with
        mb := { s.mb with faultedCount := 0 }
        ppt := { s.ppt with
          exec := none
          cq := s.ppt.cq ++
            [{ tag := x.req.tag, op := x.req.op
               status := if s.mb.faultedCount = 0 then .ok else .flushFaulted
               data := BitVec.ofNat 32 s.mb.faultedCount }] } }) ∧
  (∀ s : State, s.resetAsserted = false → s.ctl.state = .quiescing → QuiesceHolds s →
    exec .quiesceComplete s =
      .next { s with ctl := { s.ctl with state := .halted }, irq := { s.irq with haltDone := true } })

/-! ### Completions of array accesses -/

/-- PP_READ_COMPLETION: counts and record by the array outcome; the buffer's lanes laid over, and the outcome CLEAN when
they cover all the lanes needed; the READ completes with the delivered data and outcome (R13, R30, R31, R117, R118). That
the outcome and the data are those of the stored bits at the completion is the model's choice (log 28). -/
def Obligations.PpReadCompletion : Prop :=
  (∀ (s : State) (a : Access) (x : PpExec), s.resetAsserted = false →
    let u := s.eventStart
    u.aif = { state := .reading, access := some a } → a.requester = .pp → u.ppt.exec = some x →
    let read := u.readArray a.addr
    let given := u.mbOverlay a.addr (laneMaskOf x.req.size x.req.addr) read
    exec .ppReadCompletion s =
      .next { u with
        aif := { state := .idle, access := none }
        own := { u.own with backToIdle := true }
        elog := (u.reportRead read.2 .pp a.addr .read (some x.req.tag)).elog
        ppt := { u.ppt with
          exec := none
          cq := u.ppt.cq ++
            [{ tag := x.req.tag, op := x.req.op
               status := match given.2 with
                | .clean => .ok
                | .corrected _ => .okCorrected
                | .uncorrectable => .uncorrectable
               data := readResult x.req.size x.req.addr given.1 }] } }) ∧
  (∀ (s : State) (w : Addr) (need : LaneMask) (read : Word × DecodeOutcome),
    let given := s.mbOverlay w need read
    ((∀ e, (s.mb.entry e).state = .free ∨ (s.mb.entry e).addr ≠ w) → given = read) ∧
    (∀ e, (s.mb.entry e).state ≠ .free → (s.mb.entry e).addr = w →
      (∀ f, (s.mb.entry f).state ≠ .free → (s.mb.entry f).addr = w → f = e) →
      (∀ k < 32, given.1.getLsbD k =
        if ((s.mb.entry e).mask &&& need).getLsbD (k / 8) then (s.mb.entry e).data.getLsbD k
        else read.1.getLsbD k) ∧
      ((s.mb.entry e).mask &&& need = need → given.2 = .clean) ∧
      ((s.mb.entry e).mask &&& need ≠ need → given.2 = read.2)))

/-- STREAM_READ_COMPLETION of a burst's word: counts and record by the array outcome, READ_BEAT with the delivered data
and outcome; UNCORRECTABLE ends the burst and suspends the port, an aborted burst ends ABORTED, the last word ends OK,
and else the burst goes on with its next word (R143 to R145, R154). A discarded read makes its counts and record alone,
with the aborted burst's tag, and clears the flag; a burst waiting for that makes its request (R133). That the outcome
and the data are those of the stored bits at the completion is the model's choice (log 28). -/
def Obligations.StreamReadCompletion : Prop :=
  (DecodeOutcome.clean.beatStatus = .clean ∧ (∀ pos, (DecodeOutcome.corrected pos).beatStatus = .corrected) ∧
   DecodeOutcome.uncorrectable.beatStatus = .uncorrectable) ∧
  ∀ (s : State) (p : SpId) (a : Access), s.resetAsserted = false →
    let u := s.eventStart
    u.aif = { state := .reading, access := some a } → a.requester = portRequester p.port →
    let read := u.readArray a.addr
    let ended := fun (tag : Tag) =>
      { u with
        aif := { state := .idle, access := none }
        own := { u.own with backToIdle := true }
        elog := (u.reportRead read.2 (portSource p.port) a.addr .read (some tag)).elog }
    (∀ b, (u.sp p).discardedRead = none → (u.sp p).burst = some b →
      let given := u.mbOverlay a.addr 0b1111#4 read
      let done := b.done + 1
      let tag := b.hdr.tag
      let sent := { u.sp p with
        burst := some { b with done := done }
        outbound := (u.sp p).outbound ++ [.readBeat tag given.1 given.2.beatStatus] }
      (given.2 = .uncorrectable →
        exec .streamReadCompletion s =
          .next ((ended tag).setSp p
            ((sent.stopped .uncorrectable).ended tag (if b.aborted then .aborted else .uncorrectable) done))) ∧
      (given.2 ≠ .uncorrectable → b.aborted = true →
        exec .streamReadCompletion s = .next ((ended tag).setSp p (sent.ended tag .aborted done))) ∧
      (given.2 ≠ .uncorrectable → b.aborted = false → done = b.hdr.length →
        exec .streamReadCompletion s = .next ((ended tag).setSp p (sent.ended tag .ok done))) ∧
      (given.2 ≠ .uncorrectable → b.aborted = false → done ≠ b.hdr.length →
        exec .streamReadCompletion s = .next (((ended tag).setSp p sent).readOn p))) ∧
    (∀ tag, (u.sp p).discardedRead = some tag →
      let cleared := (ended tag).setSp p { u.sp p with discardedRead := none }
      ((∀ b, (u.sp p).burst = some b → b.phase ≠ .readWait) →
        exec .streamReadCompletion s = .next cleared) ∧
      (∀ b, (u.sp p).burst = some b → b.phase = .readWait →
        u.arb.slots.get (portRequester p.port) = none →
        exec .streamReadCompletion s =
          .next { cleared with
            arb := { u.arb with
              slots := u.arb.slots.put (portRequester p.port) (some { kind := .read, addr := some b.word }) } }))

/-- DRAIN_READ_COMPLETION: the missing lanes are filled and the WRITE requested; with none missing the read is not used;
UNCORRECTABLE with a lane missing makes the entry FAULTED with a MERGE_FAULT record, counted by a FLUSH that it was bound
to; the outcome is counted always (R37, R38, R46, R182). DRAIN_WRITE_COMPLETION: the word is stored with fresh check bits;
the entry becomes FREE and leaves the age list, or returns to PENDING full when it was reopened, still flush-bound only
with flush-carry (R14, R39, R44). That
the outcome and the data are those of the stored bits at the completion is the model's choice (log 28). -/
def Obligations.DrainCompletions : Prop :=
  ∀ (s : State) (a : Access) (e : Fin 8), s.resetAsserted = false →
    let u := s.eventStart
    let x := u.mb.entry e
    u.aif.access = some a → a.requester = .dr → u.mb.drain.entry = some e →
    (u.aif.state = .reading →
      let read := u.readArray a.addr
      ∃ t, exec .drainReadCompletion s = .next t ∧
        t.aif = { state := .idle, access := none } ∧ u.sameBut t [.aif, .own, .mb, .arb, .elog] ∧
        t.elog.cntCorrected =
          (match read.2 with
           | .corrected _ => saturatingInc u.elog.cntCorrected
           | .clean | .uncorrectable => u.elog.cntCorrected) ∧
        t.elog.cntUncorrectable =
          (match read.2 with
           | .uncorrectable => saturatingInc u.elog.cntUncorrectable
           | .clean | .corrected _ => u.elog.cntUncorrectable) ∧
        (x.mask = 0b1111#4 ∨ read.2 ≠ .uncorrectable →
          t.arb = { u.arb with slots := { u.arb.slots with dr := some { kind := .write, addr := some x.addr } } } ∧
          t.mb =
            { u.mb.setEntry e { x with
                state := .pending
                data := if x.mask = 0b1111#4 then x.data else overlayLanes read.1 x.data x.mask
                mask := 0b1111#4 } with
              drain := { phase := .writeWait, entry := some e } }) ∧
        (x.mask = 0b1111#4 ∨ read.2 = .clean →
          t.elog.records = u.elog.records ∧ t.elog.seq = u.elog.seq ∧ t.elog.overflow = u.elog.overflow) ∧
        (∀ pos, x.mask ≠ 0b1111#4 → read.2 = .corrected pos →
          let counted := { u with elog := { u.elog with cntCorrected := saturatingInc u.elog.cntCorrected } }
          (u.cfg.logging = false → t.elog = counted.elog) ∧
          (u.cfg.logging = true →
            t.elog = (counted.logRecord { ErrorRecord.base .corrected .drain x.addr with pos := some pos }).elog)) ∧
        (x.mask ≠ 0b1111#4 → read.2 = .uncorrectable →
          let counted := { u with elog := { u.elog with cntUncorrectable := saturatingInc u.elog.cntUncorrectable } }
          t.arb = u.arb ∧
          t.mb =
            { u.mb.setEntry e { x with state := .faulted, selected := false, forced := false, flushBound := false } with
              drain := { phase := .idle, entry := none }
              faultedCount := if x.flushBound then u.mb.faultedCount + 1 else u.mb.faultedCount } ∧
          t.elog =
            (counted.logRecord
              { ErrorRecord.base .mergeFault .drain x.addr with entry := some e, mask := some x.mask }).elog)) ∧
    (∀ d, u.aif.state = .writing → a.writeData = some d →
      ∃ t, exec .drainWriteCompletion s = .next t ∧ StoredAndIdle u t a.addr d ∧
        u.sameBut t [.array, .aif, .own, .mb] ∧
        (x.reopened = true →
          t.mb =
            { u.mb.setEntry e { x with
                state := .pending, mask := 0b1111#4, selected := false, reopened := false
                flushBound := x.flushBound && x.flushCarry, flushCarry := false } with
              drain := { phase := .idle, entry := none } }) ∧
        (x.reopened = false →
          t.mb =
            { u.mb.setEntry e Entry.default with
              age := u.mb.age.filter (· != e)
              drain := { phase := .idle, entry := none } }))

/-- ATOMIC_READ_COMPLETION: counts and record on behalf of the entry's port; UNCORRECTABLE and a failed comparison
remove the entry with that status and no write, and every other case asks for the write of the new value.
ATOMIC_WRITE_COMPLETION: the word is stored with fresh check bits and the entry removed with DONE and the old value
(R15, R52, R53, R61 to R63, R66). That the outcome and the data are those of the stored bits at the completion is the
model's choice (log 28). -/
def Obligations.AtomicCompletions : Prop :=
  (∀ (s : State) (a : Access) (older younger : List LockEntry) (e : LockEntry), s.resetAsserted = false →
    let u := s.eventStart
    u.aif.access = some a → a.requester = .ae → u.wlt = older ++ e :: younger → e.state = .inArray →
    (∀ x ∈ older, x.state ≠ .inArray) →
    (u.aif.state = .pairedRead →
      let read := u.readArray a.addr
      let reported := { u with elog := (u.reportRead read.2 (portSource e.port) a.addr .atomic (some e.tag)).elog }
      let ended := { reported with
        aif := { state := .idle, access := none }, own := { u.own with backToIdle := true } }
      (read.2 = .uncorrectable →
        exec .atomicReadCompletion s =
          .next (ended.removeLock e (some { status := .uncorrectable, old := read.1, outcome := read.2 }))) ∧
      (read.2 ≠ .uncorrectable →
        (∀ d, e.op.newValue e.opA e.opB read.1 = some d →
          exec .atomicReadCompletion s =
            .next { reported with
              aif :=
                { state := .pairedWrite
                  access := some { a with writeData := some d, readData := some read.1, outcome := some read.2 } } }) ∧
        (e.op.newValue e.opA e.opB read.1 = none →
          exec .atomicReadCompletion s =
            .next (ended.removeLock e (some { status := .casFailed, old := read.1, outcome := read.2 }))))) ∧
    (∀ d old o, u.aif.state = .pairedWrite → a.writeData = some d → a.readData = some old → a.outcome = some o →
      ∃ v, exec .atomicWriteCompletion s =
          .next (v.removeLock e (some { status := .done, old := old, outcome := o })) ∧
        StoredAndIdle u v a.addr d ∧ u.sameBut v [.array, .aif, .own])) ∧
  (∀ (x old : Word) (y : Option Word),
    AtomicOp.fetchAdd.newValue x y old = some (old + x) ∧ AtomicOp.fetchOr.newValue x y old = some (old ||| x) ∧
    AtomicOp.fetchClear.newValue x y old = some (old &&& ~~~x) ∧ AtomicOp.swap.newValue x y old = some x ∧
    (old = x → AtomicOp.compareSwap.newValue x y old = y) ∧
    (old ≠ x → AtomicOp.compareSwap.newValue x y old = none))

/-- PATROL_READ_COMPLETION: counts and record with source SCRUB; a CORRECTED word with no FAULTED entry is written back
corrected, and every other outcome ends the visit. PATROL_WRITE_COMPLETION: the word is stored and the visit ends: the
pointer advances, round to 0 with a pass counted and SCRUB_PASS at the top, and the engine waits again, or stops when a
stop is pending (R162, R163). FILL_WRITE_COMPLETION: the word is stored; the last word ends the fill with DONE and
FILL_DONE, a pending stop ends it STOPPED, and else the next word's WRITE is requested (R167). That
the outcome and the data are those of the stored bits at the completion is the model's choice (log 28). -/
def Obligations.ScrubCompletions : Prop :=
  ∀ (s : State) (a : Access), s.resetAsserted = false →
    let u := s.eventStart
    u.aif.access = some a → a.requester = .sc →
    let top := u.sce.patrolPtr.toNat + 1 = 65536 * 2 ^ u.cfg.memsize.toNat
    let visited : Scrub :=
      { u.sce with
        state := if u.sce.stopPending then .idle else .patrolWait
        stopPending := false
        intervalCount := if u.sce.stopPending then u.sce.intervalCount else 0
        intervalDue := false
        patrolPtr := if top then 0#20 else u.sce.patrolPtr + 1
        passes := if top then u.sce.passes + 1 else u.sce.passes }
    let passed : Irq := if top then { u.irq with scrubPass := true } else u.irq
    (u.aif.state = .pairedRead →
      let read := u.readArray a.addr
      let reported := { u with elog := (u.reportRead read.2 .scrub a.addr .patrol none).elog }
      let repaired := (∃ pos, read.2 = .corrected pos) ∧
        ∀ e, ¬ ((u.mb.entry e).state = .faulted ∧ (u.mb.entry e).addr = a.addr)
      (repaired →
        exec .patrolReadCompletion s =
          .next { reported with
            aif :=
              { state := .pairedWrite
                access := some { a with writeData := some read.1, readData := some read.1, outcome := some read.2 } } }) ∧
      (¬ repaired →
        exec .patrolReadCompletion s =
          .next { reported with
            aif := { state := .idle, access := none }
            own := { u.own with backToIdle := true }
            sce := visited, irq := passed })) ∧
    (∀ d, u.aif.state = .pairedWrite → a.writeData = some d →
      ∃ t, exec .patrolWriteCompletion s = .next t ∧ StoredAndIdle u t a.addr d ∧ t.sce = visited ∧ t.irq = passed ∧
        u.sameBut t [.array, .aif, .own, .sce, .irq]) ∧
    (∀ d, u.aif.state = .writing → a.writeData = some d →
      ∃ t, exec .fillWriteCompletion s = .next t ∧ StoredAndIdle u t a.addr d ∧
        u.sameBut t [.array, .aif, .own, .sce, .irq, .arb] ∧
        (u.sce.fillPtr = u.sce.fillLast →
          t.sce = { u.sce with state := .idle, stopPending := false, fillResult := .done } ∧
          t.irq = { u.irq with fillDone := true } ∧ t.arb = u.arb) ∧
        (u.sce.fillPtr ≠ u.sce.fillLast → u.sce.stopPending = true →
          t.sce =
            { u.sce with
              state := .idle, stopPending := false, fillResult := .stopped, fillPtr := u.sce.fillPtr + 1 } ∧
          t.irq = u.irq ∧ t.arb = u.arb) ∧
        (u.sce.fillPtr ≠ u.sce.fillLast → u.sce.stopPending = false →
          t.sce = { u.sce with state := .fillRequest, fillPtr := u.sce.fillPtr + 1 } ∧ t.irq = u.irq ∧
          t.arb =
            { u.arb with
              slots := { u.arb.slots with sc := some { kind := .write, addr := some (u.sce.fillPtr + 1) } } }))

/-! ### The stored word -/

/-- ARRAY_DISTURBANCE flips the named stored bits of one word and changes nothing else (R7). A word as written reads CLEAN
with its data; one flipped bit at position p reads CORRECTED at p + 1 with the data as written; two read UNCORRECTABLE as
sampled; three or more, and a word never written, read one of the three outcomes (R7 to R11). -/
def Obligations.DisturbanceAndDecode : Prop :=
  (∀ (s : State) (a : Addr) (flips : Bits39), InvArray s →
    ∃ t, exec (.arrayDisturbance a flips) s = .next t ∧ s.sameBut t [.array] ∧
      t.wordAt a = { s.wordAt a with flips := (s.wordAt a).flips ^^^ flips } ∧
      ∀ b, b ≠ a → t.wordAt b = s.wordAt b) ∧
  (∀ (s : State) (a : Addr) (d : Word),
    (s.wordAt a = { base := .written d, flips := 0#39 } → s.readArray a = (d, .clean)) ∧
    (∀ p < 39, s.wordAt a = { base := .written d, flips := 1#39 <<< p } →
      s.readArray a = (d, .corrected (BitVec.ofNat 7 (p + 1)))) ∧
    (∀ p q, p < q → q < 39 → s.wordAt a = { base := .written d, flips := 1#39 <<< p ||| 1#39 <<< q } →
      s.readArray a = (d ^^^ (1#39 <<< p ||| 1#39 <<< q).setWidth 32, .uncorrectable)) ∧
    ((s.readArray a).2 = .clean ∨ (s.readArray a).2 = .uncorrectable ∨
      ∃ pos, (s.readArray a).2 = .corrected pos ∧ 1 ≤ pos.toNat ∧ pos.toNat ≤ 39) ∧
    ((s.readArray a).2 = .clean ∨ (s.readArray a).2 = .uncorrectable →
      (s.readArray a).1 = (s.wordAt a).sampled a) ∧
    (∀ pos, (s.readArray a).2 = .corrected pos →
      (pos.toNat ≤ 32 → (s.readArray a).1 = (s.wordAt a).sampled a ^^^ 1#32 <<< (pos.toNat - 1)) ∧
      (32 < pos.toNat → (s.readArray a).1 = (s.wordAt a).sampled a)))

/-! ### The shared operations that the statements above speak of -/

/-- A merge write: held by a lock entry; else accepted with mask 0000; else refused at a FAULTED entry, or written over
the lanes of the word's entry, marking a WRITING one reopened and turning a waiting drain READ that is now full into a
WRITE; else given the lowest FREE entry, the youngest; else waiting, with MB_BLOCKED while all eight are FAULTED. The
port is told: a WRITE completes OK or ENTRY_FAULTED; a burst's done count advances, and it ends or awaits its next beat
(R20 to R28, R36, R119, R148). -/
def Obligations.MergeWriteOutcome : Prop :=
  (∀ (s : State) (m : MergeWrite),
    (s.locked m.addr = true → s.mergeIssue m = { s with mb := { s.mb with held := s.mb.held ++ [m] } }) ∧
    (s.locked m.addr = false → m.mask = 0b0000#4 → s.mergeIssue m = s.mbTell m.port .accepted) ∧
    (s.locked m.addr = false → m.mask ≠ 0b0000#4 →
      (∀ e, (s.mb.entry e).state ≠ .free → (s.mb.entry e).addr = m.addr →
        (∀ f, (s.mb.entry f).state ≠ .free → (s.mb.entry f).addr = m.addr → f = e) →
        let x := s.mb.entry e
        let y : Entry :=
          { x with
            data := overlayLanes x.data m.data m.mask
            mask := x.mask ||| m.mask
            reopened := x.reopened || x.state == .writing }
        (x.state = .faulted → s.mergeIssue m = s.mbTell m.port .refused) ∧
        (x.state ≠ .faulted → s.mb.drain = { phase := .readWait, entry := some e } → y.mask = 0b1111#4 →
          s.mergeIssue m =
            { s with
              mb := { s.mb.setEntry e y with drain := { phase := .writeWait, entry := some e } }
              arb := { s.arb with
                slots := { s.arb.slots with dr := some { kind := .write, addr := some x.addr } } } }.mbTell
              m.port .accepted) ∧
        (x.state ≠ .faulted → s.mb.drain ≠ { phase := .readWait, entry := some e } ∨ y.mask ≠ 0b1111#4 →
          s.mergeIssue m = { s with mb := s.mb.setEntry e y }.mbTell m.port .accepted)) ∧
      ((∀ e, (s.mb.entry e).state = .free ∨ (s.mb.entry e).addr ≠ m.addr) →
        (∀ e, (s.mb.entry e).state = .free → (∀ f, f < e → (s.mb.entry f).state ≠ .free) →
          s.mergeIssue m =
            { s with
              mb := { s.mb.setEntry e
                  { Entry.default with
                    state := .pending, addr := m.addr, data := overlayLanes 0#32 m.data m.mask, mask := m.mask } with
                age := s.mb.age ++ [e] } }.mbTell m.port .accepted) ∧
        ((∀ e, (s.mb.entry e).state ≠ .free) →
          ∃ blocked,
            s.mergeIssue m =
              { s with mb := { s.mb with waiting := s.mb.waiting ++ [m] }, irq := { s.irq with mbBlocked := blocked } } ∧
            ((∀ e, (s.mb.entry e).state = .faulted) → blocked = true) ∧
            ((∃ e, (s.mb.entry e).state ≠ .faulted) → blocked = s.irq.mbBlocked))))) ∧
  (∀ (s : State) (x : PpExec), s.ppt.exec = some x →
    let record := fun st : CplStatus =>
      { s with ppt := { s.ppt with
          exec := none, cq := s.ppt.cq ++ [{ tag := x.req.tag, op := x.req.op, status := st, data := 0#32 }] } }
    s.mbTell .pp .accepted = record .ok ∧ s.mbTell .pp .refused = record .entryFaulted) ∧
  (∀ (s : State) (p : SpId) (b : Burst), (s.sp p).burst = some b →
    (b.done + 1 = b.hdr.length →
      s.mbTell p.port .accepted = s.setSp p ((s.sp p).ended b.hdr.tag .ok (b.done + 1))) ∧
    (b.done + 1 ≠ b.hdr.length →
      s.mbTell p.port .accepted =
        s.setSp p
          { s.sp p with
            burst := some { b with done := b.done + 1, phase := .beatWait, hold := .none, beat := none }
            timer := 0
            expiryDue := false }) ∧
    s.mbTell p.port .refused = s.setSp p ((s.sp p).ended b.hdr.tag .entryFaulted b.done))

/-- Lock entries: a port with an entry gets no second one; a new entry behind another for its word is in WAIT_TURN; a
new entry first for its word asks the buffer, and is in WAIT_GRANT with an access asked for, or in WAIT_DRAIN with the
entry forced, or removed and answered ENTRY_FAULTED. At a removal the port is answered with the result, unless there is
none or the entry was cancelled; the oldest entry left for the word asks the buffer in the same way, and one that finds
a FAULTED entry is removed with ENTRY_FAULTED in its turn; with none left for the word a held processor atomic is
released. The atomic engine asks for an access while an entry is in WAIT_GRANT and withdraws its request when none is
(R40, R54 to R58, R60, R63, R64, R67, R68, R70, R151). -/
def Obligations.LockCreationAndRemoval : Prop :=
  (DecodeOutcome.clean.beatStatus = .clean ∧ (∀ pos, (DecodeOutcome.corrected pos).beatStatus = .corrected) ∧
   DecodeOutcome.uncorrectable.beatStatus = .uncorrectable) ∧
  (∀ (s : State) (e : LockEntry),
    (s.hasLock e.port = true → s.createLock e = s) ∧
    (s.hasLock e.port = false → e.state = .waitTurn →
      let t := s.createLock e
      (∀ older x younger, s.wlt = older ++ x :: younger → (∀ y ∈ older, y.addr ≠ e.addr) → x.addr = e.addr →
        x.state ≠ .waitTurn → t.wlt = s.wlt ++ [e] ∧ s.sameBut t [.wlt, .arb] ∧ AeFollows s t) ∧
      ((∀ x ∈ s.wlt, x.addr ≠ e.addr) →
        (s.mbAsk e.addr = .none →
          t.wlt = s.wlt ++ [{ e with state := .waitGrant }] ∧ s.sameBut t [.wlt, .arb] ∧ AeFollows s t) ∧
        (∀ i, s.mbAsk e.addr = .forced i →
          t.wlt = s.wlt ++ [{ e with state := .waitDrain }] ∧ s.sameBut t [.wlt, .mb, .arb] ∧ AeFollows s t ∧
          t.mb = s.mb.setEntry i { s.mb.entry i with forced := true }) ∧
        (s.mbAsk e.addr = .faulted →
          t.wlt = s.wlt ∧ AeFollows s t ∧
          (∀ x, e.port = .pp → e.cancelled = false → s.ppt.exec = some x →
            s.sameBut t [.ppt, .arb] ∧
            t.ppt =
              { s.ppt with
                exec := none
                cq := s.ppt.cq ++
                  [{ tag := x.req.tag, op := x.req.op, status := .entryFaulted, data := 0#32 }] }) ∧
          (∀ p b, e.port = SpId.port p → e.cancelled = false → (s.sp p).burst = some b →
            t.sp p = (s.sp p).ended b.hdr.tag .entryFaulted b.done))))) ∧
  (∀ (s : State) (w : Addr),
    ((∀ e, (s.mb.entry e).state = .free ∨ (s.mb.entry e).addr ≠ w) → s.mbAsk w = .none) ∧
    (∀ e, (s.mb.entry e).state ≠ .free → (s.mb.entry e).addr = w →
      (∀ f, (s.mb.entry f).state ≠ .free → (s.mb.entry f).addr = w → f = e) →
      ((s.mb.entry e).state = .faulted → s.mbAsk w = .faulted) ∧
      ((s.mb.entry e).state ≠ .faulted → s.mbAsk w = .forced e))) ∧
  (∀ (s : State) (e : LockEntry) (r : Option LockResult),
    let t := s.removeLock e r
    let left := s.wlt.filter (·.port != e.port)
    let answered := match r with
      | none => { s with wlt := left }
      | some x => { s with wlt := left }.deliver e x
    EntryRemoved s t e ∧
    ((∀ x ∈ left, x.addr ≠ e.addr) →
      t.ppt = (answered.releaseHeldAtomic e.addr).ppt ∧ ∀ p, t.sp p = answered.sp p) ∧
    (∀ older x younger, left = older ++ x :: younger → (∀ y ∈ older, y.addr ≠ e.addr) → x.addr = e.addr →
      (x.state ≠ .waitTurn ∨ s.mbAsk e.addr ≠ .faulted → t.ppt = answered.ppt ∧ ∀ p, t.sp p = answered.sp p) ∧
      (x.state = .waitTurn → s.mbAsk e.addr = .faulted →
        t = answered.removeLock x (some { status := .entryFaulted, old := 0#32, outcome := .clean }))) ∧
    s.sameBut t [.wlt, .mb, .arb, .ppt, .sp0, .sp1]) ∧
  (∀ (s : State) (e : LockEntry) (r : LockResult),
    (e.cancelled = true → s.deliver e r = s) ∧
    (∀ x, e.cancelled = false → e.port = .pp → s.ppt.exec = some x →
      s.deliver e r =
        { s with ppt := { s.ppt with
            exec := none
            cq := s.ppt.cq ++
              [{ tag := x.req.tag, op := x.req.op, data := r.old
                 status := match r.status, r.outcome with
                  | .done, .clean => .ok
                  | .done, .corrected _ => .okCorrected
                  | .done, .uncorrectable => .uncorrectable
                  | .casFailed, _ => .casFailed
                  | .uncorrectable, _ => .uncorrectable
                  | .entryFaulted, _ => .entryFaulted }] } }) ∧
    (∀ p b, e.cancelled = false → e.port = SpId.port p → (s.sp p).burst = some b →
      let beat : StreamPort := { s.sp p with
        burst := some { b with done := 1 }
        outbound := (s.sp p).outbound ++ [.readBeat e.tag r.old r.outcome.beatStatus] }
      (r.status = .entryFaulted → s.deliver e r = s.setSp p ((s.sp p).ended b.hdr.tag .entryFaulted b.done)) ∧
      (r.status = .done → r.outcome ≠ .uncorrectable →
        s.deliver e r = s.setSp p (beat.ended b.hdr.tag .ok 1)) ∧
      (r.status = .casFailed → r.outcome ≠ .uncorrectable →
        s.deliver e r = s.setSp p (beat.ended b.hdr.tag .casFailed 1)) ∧
      (r.status = .uncorrectable → r.outcome = .uncorrectable →
        s.deliver e r = s.setSp p ((beat.stopped .uncorrectable).ended b.hdr.tag .uncorrectable 1))))

/-- The log takes a record: with fewer than 8 held it joins the tail under the counter's number; with 8 held it is
dropped, the overflow flag is set, and the counter advances but while it equals the oldest record's number. A read
completion adds one to the count of its outcome, up to 65535, and makes its record, a CORRECTED one only while the
enable is on. The counter is 0 after device reset (R175 to R177, R181, R182, R118, R66, R162). -/
def Obligations.LogAndCounts : Prop :=
  (∀ (s : State) (r : ErrorRecord),
    (s.elog.records.length < 8 →
      s.logRecord r =
        { s with elog := { s.elog with
            records := s.elog.records ++ [{ r with seq := s.elog.seq }], seq := s.elog.seq + 1 } }) ∧
    (∀ oldest rest, s.elog.records = oldest :: rest → 8 ≤ s.elog.records.length →
      (s.elog.seq = oldest.seq → s.logRecord r = { s with elog := { s.elog with overflow := true } }) ∧
      (s.elog.seq ≠ oldest.seq →
        s.logRecord r = { s with elog := { s.elog with overflow := true, seq := s.elog.seq + 1 } }))) ∧
  (∀ (s : State) (src : Source) (a : Addr) (k : AccessType) (tag : Option Tag),
    let base : ErrorRecord := { ErrorRecord.base .corrected src a with access := some k, tag := tag }
    s.reportRead .clean src a k tag = s ∧
    (∀ pos,
      let counted := { s with elog := { s.elog with cntCorrected := saturatingInc s.elog.cntCorrected } }
      (s.cfg.logging = false → s.reportRead (.corrected pos) src a k tag = counted) ∧
      (s.cfg.logging = true →
        s.reportRead (.corrected pos) src a k tag = counted.logRecord { base with pos := some pos })) ∧
    s.reportRead .uncorrectable src a k tag =
      { s with elog := { s.elog with cntUncorrectable := saturatingInc s.elog.cntUncorrectable } }.logRecord
        { base with kind := .uncorrectable, pos := some 127#7 }) ∧
  (∀ c : Reg16, (c = 0xFFFF#16 → saturatingInc c = c) ∧ (c ≠ 0xFFFF#16 → saturatingInc c = c + 1)) ∧
  State.reset.elog.seq = 0#16

/-! ### What every step keeps -/

/-- The array's memory, a list of words as last written with the bits that differ from it, keeps its canonical form at
every step: addresses strictly rising, no word listed that equals an unlisted one. The form is the model's own, which no
rule gives (the model's choice, log 25). -/
def Obligations.ArrayFormKept : Prop := ∀ s t : State, InvArray s → step s = .next t → InvArray t

/-- The queues stay within their sizes at every step: at most 4 requests in the PRQ; completion records, with the
executing request, at most 8; at most 8 error records (R114, R122, R175). -/
def Obligations.QueueSizesKept : Prop := ∀ s t : State, InvQueues s → step s = .next t → InvQueues t

/-- Both stream ports keep the credit law at every step: credits and queued headers make exactly 4 in ENABLED and
SUSPENDED, and no credit is left in DISABLING and DISABLED; the executing header is at its queue's head (R137, R129). -/
def Obligations.CreditLawKept : Prop := ∀ s t : State, InvPorts s → step s = .next t → InvPorts t

/-- The merge buffer keeps its laws at every step: one entry a word, the age list of the non-FREE entries, and the drain
engine's phase with its entry's state (R18, R19, R32). -/
def Obligations.BufferLawsKept : Prop := ∀ s t : State, InvBuffer s → step s = .next t → InvBuffer t

/-- HALTED keeps its law at every step: no request, burst or atomic in progress, the scrub engine IDLE, and no access in
flight but the drain engine's (R83, R102, R105). -/
def Obligations.HaltedLawKept : Prop := ∀ s t : State, InvHalted s → step s = .next t → InvHalted t

/-- The error log keeps its numbering law at every step: the numbers held rise from the oldest record's, never wrap onto
it, and the next kept record's number is none of them (R175, R176). -/
def Obligations.SequenceLawKept : Prop := ∀ s t : State, InvSequence s → step s = .next t → InvSequence t

/-- The word lock table holds at most one entry a port, and so at most three, after device reset and at every step; after
device reset it is empty (R54). -/
def Obligations.LockTableLawKept : Prop :=
  (∀ s t : State, InvLocks s → step s = .next t → InvLocks t) ∧ (∀ s : State, InvLocks s → s.wlt.length ≤ 3) ∧
  State.reset.wlt = [] ∧ InvLocks State.reset ∧
  ∀ s t : State, s.resetAsserted = false → exec .resetAssert s = .next t → t.wlt = []

/-- The configuration registers hold legal values at every step, the prescale count stays below CFG_PRESCALE, no region's
last block lies below its first, and the bypass count is at most 16 and 0 without a waiting scrub request
(R4, R33, R110, R111, R90, R80). -/
def Obligations.SettingsAndBypassKept : Prop :=
  (∀ s t : State, InvSettings s → step s = .next t → InvSettings t) ∧
  (∀ s t : State, InvBypass s → step s = .next t → InvBypass t)

/-- Device reset leaves a state that meets every one of these laws. -/
def Obligations.ResetMeetsTheLaws : Prop :=
  InvArray State.reset ∧ InvQueues State.reset ∧ InvPorts State.reset ∧ InvBuffer State.reset ∧
  InvHalted State.reset ∧ InvSequence State.reset ∧ InvLocks State.reset ∧ InvSettings State.reset ∧
  InvBypass State.reset

end
end

