-- ==== Sys2Proof/Laws/State.lean ====
section
/-! SUPPORT. One lemma per field per setter of the state, each true by `rfl` and a simp lemma, so that no proof unfolds a
record update. -/

namespace Sys2Proof.Machine

variable (s : State)

/-! ### setReset -/

@[simp] theorem State.setReset_resetAsserted (x : Bool) : (s.setReset x).resetAsserted = x := rfl
@[simp] theorem State.setReset_array (x : Bool) : (s.setReset x).array = s.array := rfl
@[simp] theorem State.setReset_aif (x : Bool) : (s.setReset x).aif = s.aif := rfl
@[simp] theorem State.setReset_mb (x : Bool) : (s.setReset x).mb = s.mb := rfl
@[simp] theorem State.setReset_wlt (x : Bool) : (s.setReset x).wlt = s.wlt := rfl
@[simp] theorem State.setReset_arb (x : Bool) : (s.setReset x).arb = s.arb := rfl
@[simp] theorem State.setReset_acu (x : Bool) : (s.setReset x).acu = s.acu := rfl
@[simp] theorem State.setReset_ctl (x : Bool) : (s.setReset x).ctl = s.ctl := rfl
@[simp] theorem State.setReset_cfg (x : Bool) : (s.setReset x).cfg = s.cfg := rfl
@[simp] theorem State.setReset_ppt (x : Bool) : (s.setReset x).ppt = s.ppt := rfl
@[simp] theorem State.setReset_sp0 (x : Bool) : (s.setReset x).sp0 = s.sp0 := rfl
@[simp] theorem State.setReset_sp1 (x : Bool) : (s.setReset x).sp1 = s.sp1 := rfl
@[simp] theorem State.setReset_sce (x : Bool) : (s.setReset x).sce = s.sce := rfl
@[simp] theorem State.setReset_elog (x : Bool) : (s.setReset x).elog = s.elog := rfl
@[simp] theorem State.setReset_irq (x : Bool) : (s.setReset x).irq = s.irq := rfl
@[simp] theorem State.setReset_own (x : Bool) : (s.setReset x).own = s.own := rfl
@[simp] theorem State.setReset_pending (x : Bool) : (s.setReset x).pending = s.pending := rfl
@[simp] theorem State.setReset_sp (x : Bool) (p : SpId) : (s.setReset x).sp p = s.sp p := by cases p <;> rfl
@[simp] theorem State.setReset_self : s.setReset s.resetAsserted = s := rfl
@[simp] theorem State.setReset_setReset (x y : Bool) : (s.setReset x).setReset y = s.setReset y := rfl

/-! ### setArray -/

@[simp] theorem State.setArray_resetAsserted (x : ArrayMem) : (s.setArray x).resetAsserted = s.resetAsserted := rfl
@[simp] theorem State.setArray_array (x : ArrayMem) : (s.setArray x).array = x := rfl
@[simp] theorem State.setArray_aif (x : ArrayMem) : (s.setArray x).aif = s.aif := rfl
@[simp] theorem State.setArray_mb (x : ArrayMem) : (s.setArray x).mb = s.mb := rfl
@[simp] theorem State.setArray_wlt (x : ArrayMem) : (s.setArray x).wlt = s.wlt := rfl
@[simp] theorem State.setArray_arb (x : ArrayMem) : (s.setArray x).arb = s.arb := rfl
@[simp] theorem State.setArray_acu (x : ArrayMem) : (s.setArray x).acu = s.acu := rfl
@[simp] theorem State.setArray_ctl (x : ArrayMem) : (s.setArray x).ctl = s.ctl := rfl
@[simp] theorem State.setArray_cfg (x : ArrayMem) : (s.setArray x).cfg = s.cfg := rfl
@[simp] theorem State.setArray_ppt (x : ArrayMem) : (s.setArray x).ppt = s.ppt := rfl
@[simp] theorem State.setArray_sp0 (x : ArrayMem) : (s.setArray x).sp0 = s.sp0 := rfl
@[simp] theorem State.setArray_sp1 (x : ArrayMem) : (s.setArray x).sp1 = s.sp1 := rfl
@[simp] theorem State.setArray_sce (x : ArrayMem) : (s.setArray x).sce = s.sce := rfl
@[simp] theorem State.setArray_elog (x : ArrayMem) : (s.setArray x).elog = s.elog := rfl
@[simp] theorem State.setArray_irq (x : ArrayMem) : (s.setArray x).irq = s.irq := rfl
@[simp] theorem State.setArray_own (x : ArrayMem) : (s.setArray x).own = s.own := rfl
@[simp] theorem State.setArray_pending (x : ArrayMem) : (s.setArray x).pending = s.pending := rfl
@[simp] theorem State.setArray_sp (x : ArrayMem) (p : SpId) : (s.setArray x).sp p = s.sp p := by cases p <;> rfl
@[simp] theorem State.setArray_self : s.setArray s.array = s := rfl
@[simp] theorem State.setArray_setArray (x y : ArrayMem) : (s.setArray x).setArray y = s.setArray y := rfl

/-! ### setAif -/

@[simp] theorem State.setAif_resetAsserted (x : Aif) : (s.setAif x).resetAsserted = s.resetAsserted := rfl
@[simp] theorem State.setAif_array (x : Aif) : (s.setAif x).array = s.array := rfl
@[simp] theorem State.setAif_aif (x : Aif) : (s.setAif x).aif = x := rfl
@[simp] theorem State.setAif_mb (x : Aif) : (s.setAif x).mb = s.mb := rfl
@[simp] theorem State.setAif_wlt (x : Aif) : (s.setAif x).wlt = s.wlt := rfl
@[simp] theorem State.setAif_arb (x : Aif) : (s.setAif x).arb = s.arb := rfl
@[simp] theorem State.setAif_acu (x : Aif) : (s.setAif x).acu = s.acu := rfl
@[simp] theorem State.setAif_ctl (x : Aif) : (s.setAif x).ctl = s.ctl := rfl
@[simp] theorem State.setAif_cfg (x : Aif) : (s.setAif x).cfg = s.cfg := rfl
@[simp] theorem State.setAif_ppt (x : Aif) : (s.setAif x).ppt = s.ppt := rfl
@[simp] theorem State.setAif_sp0 (x : Aif) : (s.setAif x).sp0 = s.sp0 := rfl
@[simp] theorem State.setAif_sp1 (x : Aif) : (s.setAif x).sp1 = s.sp1 := rfl
@[simp] theorem State.setAif_sce (x : Aif) : (s.setAif x).sce = s.sce := rfl
@[simp] theorem State.setAif_elog (x : Aif) : (s.setAif x).elog = s.elog := rfl
@[simp] theorem State.setAif_irq (x : Aif) : (s.setAif x).irq = s.irq := rfl
@[simp] theorem State.setAif_own (x : Aif) : (s.setAif x).own = s.own := rfl
@[simp] theorem State.setAif_pending (x : Aif) : (s.setAif x).pending = s.pending := rfl
@[simp] theorem State.setAif_sp (x : Aif) (p : SpId) : (s.setAif x).sp p = s.sp p := by cases p <;> rfl
@[simp] theorem State.setAif_self : s.setAif s.aif = s := rfl
@[simp] theorem State.setAif_setAif (x y : Aif) : (s.setAif x).setAif y = s.setAif y := rfl

/-! ### setMb -/

@[simp] theorem State.setMb_resetAsserted (x : MergeBuffer) : (s.setMb x).resetAsserted = s.resetAsserted := rfl
@[simp] theorem State.setMb_array (x : MergeBuffer) : (s.setMb x).array = s.array := rfl
@[simp] theorem State.setMb_aif (x : MergeBuffer) : (s.setMb x).aif = s.aif := rfl
@[simp] theorem State.setMb_mb (x : MergeBuffer) : (s.setMb x).mb = x := rfl
@[simp] theorem State.setMb_wlt (x : MergeBuffer) : (s.setMb x).wlt = s.wlt := rfl
@[simp] theorem State.setMb_arb (x : MergeBuffer) : (s.setMb x).arb = s.arb := rfl
@[simp] theorem State.setMb_acu (x : MergeBuffer) : (s.setMb x).acu = s.acu := rfl
@[simp] theorem State.setMb_ctl (x : MergeBuffer) : (s.setMb x).ctl = s.ctl := rfl
@[simp] theorem State.setMb_cfg (x : MergeBuffer) : (s.setMb x).cfg = s.cfg := rfl
@[simp] theorem State.setMb_ppt (x : MergeBuffer) : (s.setMb x).ppt = s.ppt := rfl
@[simp] theorem State.setMb_sp0 (x : MergeBuffer) : (s.setMb x).sp0 = s.sp0 := rfl
@[simp] theorem State.setMb_sp1 (x : MergeBuffer) : (s.setMb x).sp1 = s.sp1 := rfl
@[simp] theorem State.setMb_sce (x : MergeBuffer) : (s.setMb x).sce = s.sce := rfl
@[simp] theorem State.setMb_elog (x : MergeBuffer) : (s.setMb x).elog = s.elog := rfl
@[simp] theorem State.setMb_irq (x : MergeBuffer) : (s.setMb x).irq = s.irq := rfl
@[simp] theorem State.setMb_own (x : MergeBuffer) : (s.setMb x).own = s.own := rfl
@[simp] theorem State.setMb_pending (x : MergeBuffer) : (s.setMb x).pending = s.pending := rfl
@[simp] theorem State.setMb_sp (x : MergeBuffer) (p : SpId) : (s.setMb x).sp p = s.sp p := by cases p <;> rfl
@[simp] theorem State.setMb_self : s.setMb s.mb = s := rfl
@[simp] theorem State.setMb_setMb (x y : MergeBuffer) : (s.setMb x).setMb y = s.setMb y := rfl

/-! ### setWlt -/

@[simp] theorem State.setWlt_resetAsserted (x : List LockEntry) : (s.setWlt x).resetAsserted = s.resetAsserted := rfl
@[simp] theorem State.setWlt_array (x : List LockEntry) : (s.setWlt x).array = s.array := rfl
@[simp] theorem State.setWlt_aif (x : List LockEntry) : (s.setWlt x).aif = s.aif := rfl
@[simp] theorem State.setWlt_mb (x : List LockEntry) : (s.setWlt x).mb = s.mb := rfl
@[simp] theorem State.setWlt_wlt (x : List LockEntry) : (s.setWlt x).wlt = x := rfl
@[simp] theorem State.setWlt_arb (x : List LockEntry) : (s.setWlt x).arb = s.arb := rfl
@[simp] theorem State.setWlt_acu (x : List LockEntry) : (s.setWlt x).acu = s.acu := rfl
@[simp] theorem State.setWlt_ctl (x : List LockEntry) : (s.setWlt x).ctl = s.ctl := rfl
@[simp] theorem State.setWlt_cfg (x : List LockEntry) : (s.setWlt x).cfg = s.cfg := rfl
@[simp] theorem State.setWlt_ppt (x : List LockEntry) : (s.setWlt x).ppt = s.ppt := rfl
@[simp] theorem State.setWlt_sp0 (x : List LockEntry) : (s.setWlt x).sp0 = s.sp0 := rfl
@[simp] theorem State.setWlt_sp1 (x : List LockEntry) : (s.setWlt x).sp1 = s.sp1 := rfl
@[simp] theorem State.setWlt_sce (x : List LockEntry) : (s.setWlt x).sce = s.sce := rfl
@[simp] theorem State.setWlt_elog (x : List LockEntry) : (s.setWlt x).elog = s.elog := rfl
@[simp] theorem State.setWlt_irq (x : List LockEntry) : (s.setWlt x).irq = s.irq := rfl
@[simp] theorem State.setWlt_own (x : List LockEntry) : (s.setWlt x).own = s.own := rfl
@[simp] theorem State.setWlt_pending (x : List LockEntry) : (s.setWlt x).pending = s.pending := rfl
@[simp] theorem State.setWlt_sp (x : List LockEntry) (p : SpId) : (s.setWlt x).sp p = s.sp p := by cases p <;> rfl
@[simp] theorem State.setWlt_self : s.setWlt s.wlt = s := rfl
@[simp] theorem State.setWlt_setWlt (x y : List LockEntry) : (s.setWlt x).setWlt y = s.setWlt y := rfl

/-! ### setArb -/

@[simp] theorem State.setArb_resetAsserted (x : Arbiter) : (s.setArb x).resetAsserted = s.resetAsserted := rfl
@[simp] theorem State.setArb_array (x : Arbiter) : (s.setArb x).array = s.array := rfl
@[simp] theorem State.setArb_aif (x : Arbiter) : (s.setArb x).aif = s.aif := rfl
@[simp] theorem State.setArb_mb (x : Arbiter) : (s.setArb x).mb = s.mb := rfl
@[simp] theorem State.setArb_wlt (x : Arbiter) : (s.setArb x).wlt = s.wlt := rfl
@[simp] theorem State.setArb_arb (x : Arbiter) : (s.setArb x).arb = x := rfl
@[simp] theorem State.setArb_acu (x : Arbiter) : (s.setArb x).acu = s.acu := rfl
@[simp] theorem State.setArb_ctl (x : Arbiter) : (s.setArb x).ctl = s.ctl := rfl
@[simp] theorem State.setArb_cfg (x : Arbiter) : (s.setArb x).cfg = s.cfg := rfl
@[simp] theorem State.setArb_ppt (x : Arbiter) : (s.setArb x).ppt = s.ppt := rfl
@[simp] theorem State.setArb_sp0 (x : Arbiter) : (s.setArb x).sp0 = s.sp0 := rfl
@[simp] theorem State.setArb_sp1 (x : Arbiter) : (s.setArb x).sp1 = s.sp1 := rfl
@[simp] theorem State.setArb_sce (x : Arbiter) : (s.setArb x).sce = s.sce := rfl
@[simp] theorem State.setArb_elog (x : Arbiter) : (s.setArb x).elog = s.elog := rfl
@[simp] theorem State.setArb_irq (x : Arbiter) : (s.setArb x).irq = s.irq := rfl
@[simp] theorem State.setArb_own (x : Arbiter) : (s.setArb x).own = s.own := rfl
@[simp] theorem State.setArb_pending (x : Arbiter) : (s.setArb x).pending = s.pending := rfl
@[simp] theorem State.setArb_sp (x : Arbiter) (p : SpId) : (s.setArb x).sp p = s.sp p := by cases p <;> rfl
@[simp] theorem State.setArb_self : s.setArb s.arb = s := rfl
@[simp] theorem State.setArb_setArb (x y : Arbiter) : (s.setArb x).setArb y = s.setArb y := rfl

/-! ### setAcu -/

@[simp] theorem State.setAcu_resetAsserted (x : Acu) : (s.setAcu x).resetAsserted = s.resetAsserted := rfl
@[simp] theorem State.setAcu_array (x : Acu) : (s.setAcu x).array = s.array := rfl
@[simp] theorem State.setAcu_aif (x : Acu) : (s.setAcu x).aif = s.aif := rfl
@[simp] theorem State.setAcu_mb (x : Acu) : (s.setAcu x).mb = s.mb := rfl
@[simp] theorem State.setAcu_wlt (x : Acu) : (s.setAcu x).wlt = s.wlt := rfl
@[simp] theorem State.setAcu_arb (x : Acu) : (s.setAcu x).arb = s.arb := rfl
@[simp] theorem State.setAcu_acu (x : Acu) : (s.setAcu x).acu = x := rfl
@[simp] theorem State.setAcu_ctl (x : Acu) : (s.setAcu x).ctl = s.ctl := rfl
@[simp] theorem State.setAcu_cfg (x : Acu) : (s.setAcu x).cfg = s.cfg := rfl
@[simp] theorem State.setAcu_ppt (x : Acu) : (s.setAcu x).ppt = s.ppt := rfl
@[simp] theorem State.setAcu_sp0 (x : Acu) : (s.setAcu x).sp0 = s.sp0 := rfl
@[simp] theorem State.setAcu_sp1 (x : Acu) : (s.setAcu x).sp1 = s.sp1 := rfl
@[simp] theorem State.setAcu_sce (x : Acu) : (s.setAcu x).sce = s.sce := rfl
@[simp] theorem State.setAcu_elog (x : Acu) : (s.setAcu x).elog = s.elog := rfl
@[simp] theorem State.setAcu_irq (x : Acu) : (s.setAcu x).irq = s.irq := rfl
@[simp] theorem State.setAcu_own (x : Acu) : (s.setAcu x).own = s.own := rfl
@[simp] theorem State.setAcu_pending (x : Acu) : (s.setAcu x).pending = s.pending := rfl
@[simp] theorem State.setAcu_sp (x : Acu) (p : SpId) : (s.setAcu x).sp p = s.sp p := by cases p <;> rfl
@[simp] theorem State.setAcu_self : s.setAcu s.acu = s := rfl
@[simp] theorem State.setAcu_setAcu (x y : Acu) : (s.setAcu x).setAcu y = s.setAcu y := rfl

/-! ### setCtl -/

@[simp] theorem State.setCtl_resetAsserted (x : Control) : (s.setCtl x).resetAsserted = s.resetAsserted := rfl
@[simp] theorem State.setCtl_array (x : Control) : (s.setCtl x).array = s.array := rfl
@[simp] theorem State.setCtl_aif (x : Control) : (s.setCtl x).aif = s.aif := rfl
@[simp] theorem State.setCtl_mb (x : Control) : (s.setCtl x).mb = s.mb := rfl
@[simp] theorem State.setCtl_wlt (x : Control) : (s.setCtl x).wlt = s.wlt := rfl
@[simp] theorem State.setCtl_arb (x : Control) : (s.setCtl x).arb = s.arb := rfl
@[simp] theorem State.setCtl_acu (x : Control) : (s.setCtl x).acu = s.acu := rfl
@[simp] theorem State.setCtl_ctl (x : Control) : (s.setCtl x).ctl = x := rfl
@[simp] theorem State.setCtl_cfg (x : Control) : (s.setCtl x).cfg = s.cfg := rfl
@[simp] theorem State.setCtl_ppt (x : Control) : (s.setCtl x).ppt = s.ppt := rfl
@[simp] theorem State.setCtl_sp0 (x : Control) : (s.setCtl x).sp0 = s.sp0 := rfl
@[simp] theorem State.setCtl_sp1 (x : Control) : (s.setCtl x).sp1 = s.sp1 := rfl
@[simp] theorem State.setCtl_sce (x : Control) : (s.setCtl x).sce = s.sce := rfl
@[simp] theorem State.setCtl_elog (x : Control) : (s.setCtl x).elog = s.elog := rfl
@[simp] theorem State.setCtl_irq (x : Control) : (s.setCtl x).irq = s.irq := rfl
@[simp] theorem State.setCtl_own (x : Control) : (s.setCtl x).own = s.own := rfl
@[simp] theorem State.setCtl_pending (x : Control) : (s.setCtl x).pending = s.pending := rfl
@[simp] theorem State.setCtl_sp (x : Control) (p : SpId) : (s.setCtl x).sp p = s.sp p := by cases p <;> rfl
@[simp] theorem State.setCtl_self : s.setCtl s.ctl = s := rfl
@[simp] theorem State.setCtl_setCtl (x y : Control) : (s.setCtl x).setCtl y = s.setCtl y := rfl

/-! ### setCfg -/

@[simp] theorem State.setCfg_resetAsserted (x : Settings) : (s.setCfg x).resetAsserted = s.resetAsserted := rfl
@[simp] theorem State.setCfg_array (x : Settings) : (s.setCfg x).array = s.array := rfl
@[simp] theorem State.setCfg_aif (x : Settings) : (s.setCfg x).aif = s.aif := rfl
@[simp] theorem State.setCfg_mb (x : Settings) : (s.setCfg x).mb = s.mb := rfl
@[simp] theorem State.setCfg_wlt (x : Settings) : (s.setCfg x).wlt = s.wlt := rfl
@[simp] theorem State.setCfg_arb (x : Settings) : (s.setCfg x).arb = s.arb := rfl
@[simp] theorem State.setCfg_acu (x : Settings) : (s.setCfg x).acu = s.acu := rfl
@[simp] theorem State.setCfg_ctl (x : Settings) : (s.setCfg x).ctl = s.ctl := rfl
@[simp] theorem State.setCfg_cfg (x : Settings) : (s.setCfg x).cfg = x := rfl
@[simp] theorem State.setCfg_ppt (x : Settings) : (s.setCfg x).ppt = s.ppt := rfl
@[simp] theorem State.setCfg_sp0 (x : Settings) : (s.setCfg x).sp0 = s.sp0 := rfl
@[simp] theorem State.setCfg_sp1 (x : Settings) : (s.setCfg x).sp1 = s.sp1 := rfl
@[simp] theorem State.setCfg_sce (x : Settings) : (s.setCfg x).sce = s.sce := rfl
@[simp] theorem State.setCfg_elog (x : Settings) : (s.setCfg x).elog = s.elog := rfl
@[simp] theorem State.setCfg_irq (x : Settings) : (s.setCfg x).irq = s.irq := rfl
@[simp] theorem State.setCfg_own (x : Settings) : (s.setCfg x).own = s.own := rfl
@[simp] theorem State.setCfg_pending (x : Settings) : (s.setCfg x).pending = s.pending := rfl
@[simp] theorem State.setCfg_sp (x : Settings) (p : SpId) : (s.setCfg x).sp p = s.sp p := by cases p <;> rfl
@[simp] theorem State.setCfg_self : s.setCfg s.cfg = s := rfl
@[simp] theorem State.setCfg_setCfg (x y : Settings) : (s.setCfg x).setCfg y = s.setCfg y := rfl

/-! ### setPpt -/

@[simp] theorem State.setPpt_resetAsserted (x : Ppt) : (s.setPpt x).resetAsserted = s.resetAsserted := rfl
@[simp] theorem State.setPpt_array (x : Ppt) : (s.setPpt x).array = s.array := rfl
@[simp] theorem State.setPpt_aif (x : Ppt) : (s.setPpt x).aif = s.aif := rfl
@[simp] theorem State.setPpt_mb (x : Ppt) : (s.setPpt x).mb = s.mb := rfl
@[simp] theorem State.setPpt_wlt (x : Ppt) : (s.setPpt x).wlt = s.wlt := rfl
@[simp] theorem State.setPpt_arb (x : Ppt) : (s.setPpt x).arb = s.arb := rfl
@[simp] theorem State.setPpt_acu (x : Ppt) : (s.setPpt x).acu = s.acu := rfl
@[simp] theorem State.setPpt_ctl (x : Ppt) : (s.setPpt x).ctl = s.ctl := rfl
@[simp] theorem State.setPpt_cfg (x : Ppt) : (s.setPpt x).cfg = s.cfg := rfl
@[simp] theorem State.setPpt_ppt (x : Ppt) : (s.setPpt x).ppt = x := rfl
@[simp] theorem State.setPpt_sp0 (x : Ppt) : (s.setPpt x).sp0 = s.sp0 := rfl
@[simp] theorem State.setPpt_sp1 (x : Ppt) : (s.setPpt x).sp1 = s.sp1 := rfl
@[simp] theorem State.setPpt_sce (x : Ppt) : (s.setPpt x).sce = s.sce := rfl
@[simp] theorem State.setPpt_elog (x : Ppt) : (s.setPpt x).elog = s.elog := rfl
@[simp] theorem State.setPpt_irq (x : Ppt) : (s.setPpt x).irq = s.irq := rfl
@[simp] theorem State.setPpt_own (x : Ppt) : (s.setPpt x).own = s.own := rfl
@[simp] theorem State.setPpt_pending (x : Ppt) : (s.setPpt x).pending = s.pending := rfl
@[simp] theorem State.setPpt_sp (x : Ppt) (p : SpId) : (s.setPpt x).sp p = s.sp p := by cases p <;> rfl
@[simp] theorem State.setPpt_self : s.setPpt s.ppt = s := rfl
@[simp] theorem State.setPpt_setPpt (x y : Ppt) : (s.setPpt x).setPpt y = s.setPpt y := rfl

/-! ### setSce -/

@[simp] theorem State.setSce_resetAsserted (x : Scrub) : (s.setSce x).resetAsserted = s.resetAsserted := rfl
@[simp] theorem State.setSce_array (x : Scrub) : (s.setSce x).array = s.array := rfl
@[simp] theorem State.setSce_aif (x : Scrub) : (s.setSce x).aif = s.aif := rfl
@[simp] theorem State.setSce_mb (x : Scrub) : (s.setSce x).mb = s.mb := rfl
@[simp] theorem State.setSce_wlt (x : Scrub) : (s.setSce x).wlt = s.wlt := rfl
@[simp] theorem State.setSce_arb (x : Scrub) : (s.setSce x).arb = s.arb := rfl
@[simp] theorem State.setSce_acu (x : Scrub) : (s.setSce x).acu = s.acu := rfl
@[simp] theorem State.setSce_ctl (x : Scrub) : (s.setSce x).ctl = s.ctl := rfl
@[simp] theorem State.setSce_cfg (x : Scrub) : (s.setSce x).cfg = s.cfg := rfl
@[simp] theorem State.setSce_ppt (x : Scrub) : (s.setSce x).ppt = s.ppt := rfl
@[simp] theorem State.setSce_sp0 (x : Scrub) : (s.setSce x).sp0 = s.sp0 := rfl
@[simp] theorem State.setSce_sp1 (x : Scrub) : (s.setSce x).sp1 = s.sp1 := rfl
@[simp] theorem State.setSce_sce (x : Scrub) : (s.setSce x).sce = x := rfl
@[simp] theorem State.setSce_elog (x : Scrub) : (s.setSce x).elog = s.elog := rfl
@[simp] theorem State.setSce_irq (x : Scrub) : (s.setSce x).irq = s.irq := rfl
@[simp] theorem State.setSce_own (x : Scrub) : (s.setSce x).own = s.own := rfl
@[simp] theorem State.setSce_pending (x : Scrub) : (s.setSce x).pending = s.pending := rfl
@[simp] theorem State.setSce_sp (x : Scrub) (p : SpId) : (s.setSce x).sp p = s.sp p := by cases p <;> rfl
@[simp] theorem State.setSce_self : s.setSce s.sce = s := rfl
@[simp] theorem State.setSce_setSce (x y : Scrub) : (s.setSce x).setSce y = s.setSce y := rfl

/-! ### setElog -/

@[simp] theorem State.setElog_resetAsserted (x : ErrorLog) : (s.setElog x).resetAsserted = s.resetAsserted := rfl
@[simp] theorem State.setElog_array (x : ErrorLog) : (s.setElog x).array = s.array := rfl
@[simp] theorem State.setElog_aif (x : ErrorLog) : (s.setElog x).aif = s.aif := rfl
@[simp] theorem State.setElog_mb (x : ErrorLog) : (s.setElog x).mb = s.mb := rfl
@[simp] theorem State.setElog_wlt (x : ErrorLog) : (s.setElog x).wlt = s.wlt := rfl
@[simp] theorem State.setElog_arb (x : ErrorLog) : (s.setElog x).arb = s.arb := rfl
@[simp] theorem State.setElog_acu (x : ErrorLog) : (s.setElog x).acu = s.acu := rfl
@[simp] theorem State.setElog_ctl (x : ErrorLog) : (s.setElog x).ctl = s.ctl := rfl
@[simp] theorem State.setElog_cfg (x : ErrorLog) : (s.setElog x).cfg = s.cfg := rfl
@[simp] theorem State.setElog_ppt (x : ErrorLog) : (s.setElog x).ppt = s.ppt := rfl
@[simp] theorem State.setElog_sp0 (x : ErrorLog) : (s.setElog x).sp0 = s.sp0 := rfl
@[simp] theorem State.setElog_sp1 (x : ErrorLog) : (s.setElog x).sp1 = s.sp1 := rfl
@[simp] theorem State.setElog_sce (x : ErrorLog) : (s.setElog x).sce = s.sce := rfl
@[simp] theorem State.setElog_elog (x : ErrorLog) : (s.setElog x).elog = x := rfl
@[simp] theorem State.setElog_irq (x : ErrorLog) : (s.setElog x).irq = s.irq := rfl
@[simp] theorem State.setElog_own (x : ErrorLog) : (s.setElog x).own = s.own := rfl
@[simp] theorem State.setElog_pending (x : ErrorLog) : (s.setElog x).pending = s.pending := rfl
@[simp] theorem State.setElog_sp (x : ErrorLog) (p : SpId) : (s.setElog x).sp p = s.sp p := by cases p <;> rfl
@[simp] theorem State.setElog_self : s.setElog s.elog = s := rfl
@[simp] theorem State.setElog_setElog (x y : ErrorLog) : (s.setElog x).setElog y = s.setElog y := rfl

/-! ### setIrq -/

@[simp] theorem State.setIrq_resetAsserted (x : Irq) : (s.setIrq x).resetAsserted = s.resetAsserted := rfl
@[simp] theorem State.setIrq_array (x : Irq) : (s.setIrq x).array = s.array := rfl
@[simp] theorem State.setIrq_aif (x : Irq) : (s.setIrq x).aif = s.aif := rfl
@[simp] theorem State.setIrq_mb (x : Irq) : (s.setIrq x).mb = s.mb := rfl
@[simp] theorem State.setIrq_wlt (x : Irq) : (s.setIrq x).wlt = s.wlt := rfl
@[simp] theorem State.setIrq_arb (x : Irq) : (s.setIrq x).arb = s.arb := rfl
@[simp] theorem State.setIrq_acu (x : Irq) : (s.setIrq x).acu = s.acu := rfl
@[simp] theorem State.setIrq_ctl (x : Irq) : (s.setIrq x).ctl = s.ctl := rfl
@[simp] theorem State.setIrq_cfg (x : Irq) : (s.setIrq x).cfg = s.cfg := rfl
@[simp] theorem State.setIrq_ppt (x : Irq) : (s.setIrq x).ppt = s.ppt := rfl
@[simp] theorem State.setIrq_sp0 (x : Irq) : (s.setIrq x).sp0 = s.sp0 := rfl
@[simp] theorem State.setIrq_sp1 (x : Irq) : (s.setIrq x).sp1 = s.sp1 := rfl
@[simp] theorem State.setIrq_sce (x : Irq) : (s.setIrq x).sce = s.sce := rfl
@[simp] theorem State.setIrq_elog (x : Irq) : (s.setIrq x).elog = s.elog := rfl
@[simp] theorem State.setIrq_irq (x : Irq) : (s.setIrq x).irq = x := rfl
@[simp] theorem State.setIrq_own (x : Irq) : (s.setIrq x).own = s.own := rfl
@[simp] theorem State.setIrq_pending (x : Irq) : (s.setIrq x).pending = s.pending := rfl
@[simp] theorem State.setIrq_sp (x : Irq) (p : SpId) : (s.setIrq x).sp p = s.sp p := by cases p <;> rfl
@[simp] theorem State.setIrq_self : s.setIrq s.irq = s := rfl
@[simp] theorem State.setIrq_setIrq (x y : Irq) : (s.setIrq x).setIrq y = s.setIrq y := rfl

/-! ### setOwn -/

@[simp] theorem State.setOwn_resetAsserted (x : Own) : (s.setOwn x).resetAsserted = s.resetAsserted := rfl
@[simp] theorem State.setOwn_array (x : Own) : (s.setOwn x).array = s.array := rfl
@[simp] theorem State.setOwn_aif (x : Own) : (s.setOwn x).aif = s.aif := rfl
@[simp] theorem State.setOwn_mb (x : Own) : (s.setOwn x).mb = s.mb := rfl
@[simp] theorem State.setOwn_wlt (x : Own) : (s.setOwn x).wlt = s.wlt := rfl
@[simp] theorem State.setOwn_arb (x : Own) : (s.setOwn x).arb = s.arb := rfl
@[simp] theorem State.setOwn_acu (x : Own) : (s.setOwn x).acu = s.acu := rfl
@[simp] theorem State.setOwn_ctl (x : Own) : (s.setOwn x).ctl = s.ctl := rfl
@[simp] theorem State.setOwn_cfg (x : Own) : (s.setOwn x).cfg = s.cfg := rfl
@[simp] theorem State.setOwn_ppt (x : Own) : (s.setOwn x).ppt = s.ppt := rfl
@[simp] theorem State.setOwn_sp0 (x : Own) : (s.setOwn x).sp0 = s.sp0 := rfl
@[simp] theorem State.setOwn_sp1 (x : Own) : (s.setOwn x).sp1 = s.sp1 := rfl
@[simp] theorem State.setOwn_sce (x : Own) : (s.setOwn x).sce = s.sce := rfl
@[simp] theorem State.setOwn_elog (x : Own) : (s.setOwn x).elog = s.elog := rfl
@[simp] theorem State.setOwn_irq (x : Own) : (s.setOwn x).irq = s.irq := rfl
@[simp] theorem State.setOwn_own (x : Own) : (s.setOwn x).own = x := rfl
@[simp] theorem State.setOwn_pending (x : Own) : (s.setOwn x).pending = s.pending := rfl
@[simp] theorem State.setOwn_sp (x : Own) (p : SpId) : (s.setOwn x).sp p = s.sp p := by cases p <;> rfl
@[simp] theorem State.setOwn_self : s.setOwn s.own = s := rfl
@[simp] theorem State.setOwn_setOwn (x y : Own) : (s.setOwn x).setOwn y = s.setOwn y := rfl

/-! ### setPending -/

@[simp] theorem State.setPending_resetAsserted (x : List Instr) : (s.setPending x).resetAsserted = s.resetAsserted := rfl
@[simp] theorem State.setPending_array (x : List Instr) : (s.setPending x).array = s.array := rfl
@[simp] theorem State.setPending_aif (x : List Instr) : (s.setPending x).aif = s.aif := rfl
@[simp] theorem State.setPending_mb (x : List Instr) : (s.setPending x).mb = s.mb := rfl
@[simp] theorem State.setPending_wlt (x : List Instr) : (s.setPending x).wlt = s.wlt := rfl
@[simp] theorem State.setPending_arb (x : List Instr) : (s.setPending x).arb = s.arb := rfl
@[simp] theorem State.setPending_acu (x : List Instr) : (s.setPending x).acu = s.acu := rfl
@[simp] theorem State.setPending_ctl (x : List Instr) : (s.setPending x).ctl = s.ctl := rfl
@[simp] theorem State.setPending_cfg (x : List Instr) : (s.setPending x).cfg = s.cfg := rfl
@[simp] theorem State.setPending_ppt (x : List Instr) : (s.setPending x).ppt = s.ppt := rfl
@[simp] theorem State.setPending_sp0 (x : List Instr) : (s.setPending x).sp0 = s.sp0 := rfl
@[simp] theorem State.setPending_sp1 (x : List Instr) : (s.setPending x).sp1 = s.sp1 := rfl
@[simp] theorem State.setPending_sce (x : List Instr) : (s.setPending x).sce = s.sce := rfl
@[simp] theorem State.setPending_elog (x : List Instr) : (s.setPending x).elog = s.elog := rfl
@[simp] theorem State.setPending_irq (x : List Instr) : (s.setPending x).irq = s.irq := rfl
@[simp] theorem State.setPending_own (x : List Instr) : (s.setPending x).own = s.own := rfl
@[simp] theorem State.setPending_pending (x : List Instr) : (s.setPending x).pending = x := rfl
@[simp] theorem State.setPending_sp (x : List Instr) (p : SpId) : (s.setPending x).sp p = s.sp p := by cases p <;> rfl
@[simp] theorem State.setPending_self : s.setPending s.pending = s := rfl
@[simp] theorem State.setPending_setPending (x y : List Instr) : (s.setPending x).setPending y = s.setPending y := rfl

/-! ### setSp -/

@[simp] theorem State.setSp_resetAsserted (p : SpId) (x : StreamPort) : (s.setSp p x).resetAsserted = s.resetAsserted := by
  cases p <;> rfl
@[simp] theorem State.setSp_array (p : SpId) (x : StreamPort) : (s.setSp p x).array = s.array := by
  cases p <;> rfl
@[simp] theorem State.setSp_aif (p : SpId) (x : StreamPort) : (s.setSp p x).aif = s.aif := by
  cases p <;> rfl
@[simp] theorem State.setSp_mb (p : SpId) (x : StreamPort) : (s.setSp p x).mb = s.mb := by
  cases p <;> rfl
@[simp] theorem State.setSp_wlt (p : SpId) (x : StreamPort) : (s.setSp p x).wlt = s.wlt := by
  cases p <;> rfl
@[simp] theorem State.setSp_arb (p : SpId) (x : StreamPort) : (s.setSp p x).arb = s.arb := by
  cases p <;> rfl
@[simp] theorem State.setSp_acu (p : SpId) (x : StreamPort) : (s.setSp p x).acu = s.acu := by
  cases p <;> rfl
@[simp] theorem State.setSp_ctl (p : SpId) (x : StreamPort) : (s.setSp p x).ctl = s.ctl := by
  cases p <;> rfl
@[simp] theorem State.setSp_cfg (p : SpId) (x : StreamPort) : (s.setSp p x).cfg = s.cfg := by
  cases p <;> rfl
@[simp] theorem State.setSp_ppt (p : SpId) (x : StreamPort) : (s.setSp p x).ppt = s.ppt := by
  cases p <;> rfl
@[simp] theorem State.setSp_sce (p : SpId) (x : StreamPort) : (s.setSp p x).sce = s.sce := by
  cases p <;> rfl
@[simp] theorem State.setSp_elog (p : SpId) (x : StreamPort) : (s.setSp p x).elog = s.elog := by
  cases p <;> rfl
@[simp] theorem State.setSp_irq (p : SpId) (x : StreamPort) : (s.setSp p x).irq = s.irq := by
  cases p <;> rfl
@[simp] theorem State.setSp_own (p : SpId) (x : StreamPort) : (s.setSp p x).own = s.own := by
  cases p <;> rfl
@[simp] theorem State.setSp_pending (p : SpId) (x : StreamPort) : (s.setSp p x).pending = s.pending := by
  cases p <;> rfl

@[simp] theorem State.setSp_sp_same (p : SpId) (x : StreamPort) : (s.setSp p x).sp p = x := by
  cases p <;> rfl

theorem State.setSp_sp_other {p q : SpId} (h : q ≠ p) (x : StreamPort) : (s.setSp p x).sp q = s.sp q := by
  cases p <;> cases q <;> first | rfl | exact absurd rfl h

@[simp] theorem State.setSp_self (p : SpId) : s.setSp p (s.sp p) = s := by
  cases p <;> rfl

@[simp] theorem State.setSp_setSp (p : SpId) (x y : StreamPort) : (s.setSp p x).setSp p y = s.setSp p y := by
  cases p <;> rfl

@[simp] theorem State.sp_sp0 : s.sp .sp0 = s.sp0 := rfl
@[simp] theorem State.sp_sp1 : s.sp .sp1 = s.sp1 := rfl
@[simp] theorem State.setSp_sp0_sp0 (x : StreamPort) : (s.setSp .sp0 x).sp0 = x := rfl
@[simp] theorem State.setSp_sp0_sp1 (x : StreamPort) : (s.setSp .sp0 x).sp1 = s.sp1 := rfl
@[simp] theorem State.setSp_sp1_sp1 (x : StreamPort) : (s.setSp .sp1 x).sp1 = x := rfl
@[simp] theorem State.setSp_sp1_sp0 (x : StreamPort) : (s.setSp .sp1 x).sp0 = s.sp0 := rfl

/-! ### Entries of the merge buffer -/

@[simp] theorem MergeBuffer.setEntry_same (mb : MergeBuffer) (e : Fin 8) (x : Entry) : (mb.setEntry e x).entry e = x := by
  simp [MergeBuffer.entry, MergeBuffer.setEntry]

theorem MergeBuffer.setEntry_other (mb : MergeBuffer) {e f : Fin 8} (h : f ≠ e) (x : Entry) :
    (mb.setEntry e x).entry f = mb.entry f := by
  simp only [MergeBuffer.entry, MergeBuffer.setEntry, Fin.getElem_fin]
  exact Vector.getElem_set_ne _ _ (fun heq => h (Fin.ext heq.symm))

@[simp] theorem MergeBuffer.setEntry_age (mb : MergeBuffer) (e : Fin 8) (x : Entry) : (mb.setEntry e x).age = mb.age := rfl
@[simp] theorem MergeBuffer.setEntry_waiting (mb : MergeBuffer) (e : Fin 8) (x : Entry) :
    (mb.setEntry e x).waiting = mb.waiting := rfl
@[simp] theorem MergeBuffer.setEntry_held (mb : MergeBuffer) (e : Fin 8) (x : Entry) :
    (mb.setEntry e x).held = mb.held := rfl
@[simp] theorem MergeBuffer.setEntry_drain (mb : MergeBuffer) (e : Fin 8) (x : Entry) :
    (mb.setEntry e x).drain = mb.drain := rfl
@[simp] theorem MergeBuffer.setEntry_faultedCount (mb : MergeBuffer) (e : Fin 8) (x : Entry) :
    (mb.setEntry e x).faultedCount = mb.faultedCount := rfl
@[simp] theorem MergeBuffer.setEntry_view (mb : MergeBuffer) (e : Fin 8) (x : Entry) :
    (mb.setEntry e x).view = mb.view := rfl

/-! ### Slots of the arbiter -/

@[simp] theorem Slots.put_same (sl : Slots) (r : Requester) (x : Option Request) : (sl.put r x).get r = x := by
  cases r <;> rfl

theorem Slots.put_other (sl : Slots) {r q : Requester} (h : q ≠ r) (x : Option Request) :
    (sl.put r x).get q = sl.get q := by
  cases r <;> cases q <;> first | rfl | exact absurd rfl h

end Sys2Proof.Machine
end

