-- ==== Sys2Proof/Laws/Memory.lean ====
section
/-! SUPPORT. The array's memory: reads after writes, and the canonical form kept by every operation. -/

namespace Sys2Proof.Machine

theorem ArrayMem.get_put_same (m : ArrayMem) (a : Nat) (w : StoredWord) (h : ArrayMem.wfFrom 0 m = true) :
    (m.put a w).get a = w := by
  suffices H : ∀ (lo : Nat), ArrayMem.wfFrom lo m = true → (m.put a w).get a = w from H 0 h
  clear h
  induction m with
  | nil =>
    intro lo _
    by_cases hw : w = .untouched <;> simp [ArrayMem.put, ArrayMem.get, hw]
  | cons kv rest ih =>
    obtain ⟨k, v⟩ := kv
    intro lo h
    simp only [ArrayMem.wfFrom, Bool.and_eq_true, decide_eq_true_eq] at h
    have hget : ∀ (l : ArrayMem) (lo : Nat), ArrayMem.wfFrom lo l = true → a < lo → ArrayMem.get l a = .untouched := by
      intro l
      induction l with
      | nil => intros; rfl
      | cons kv' rest' ih' =>
        obtain ⟨k', v'⟩ := kv'
        intro lo' h' hlt
        simp only [ArrayMem.wfFrom, Bool.and_eq_true, decide_eq_true_eq] at h'
        have hne : k' ≠ a := by omega
        simp only [ArrayMem.get, hne, if_false]
        exact ih' (k' + 1) h'.2 (by omega)
    by_cases h1 : a < k
    · by_cases hw : w = .untouched
      · have hne : k ≠ a := by omega
        simp only [ArrayMem.put, h1, if_true, hw, ArrayMem.get, hne, if_false]
        exact hget rest (k + 1) h.2 (by omega)
      · simp [ArrayMem.put, h1, hw, ArrayMem.get]
    · by_cases h2 : a = k
      · subst h2
        by_cases hw : w = .untouched
        · simp only [ArrayMem.put, h1, if_true, hw, if_false]
          exact hget rest (a + 1) h.2 (by omega)
        · simp [ArrayMem.put, hw, ArrayMem.get]
      · have hne : k ≠ a := fun e => h2 e.symm
        simp only [ArrayMem.put, h1, h2, if_false, ArrayMem.get, hne]
        exact ih (k + 1) h.2

/-- A word that is not untouched reads back, whatever the list. -/
theorem ArrayMem.get_put_of_touched (m : ArrayMem) (a : Nat) {w : StoredWord} (hw : w ≠ .untouched) :
    (m.put a w).get a = w := by
  induction m with
  | nil => simp [ArrayMem.put, ArrayMem.get, hw]
  | cons kv rest ih =>
    obtain ⟨k, v⟩ := kv
    by_cases h1 : a < k
    · simp [ArrayMem.put, h1, hw, ArrayMem.get]
    · by_cases h2 : a = k
      · subst h2
        simp [ArrayMem.put, hw, ArrayMem.get]
      · simp [ArrayMem.put, h1, h2, ArrayMem.get, Ne.symm h2, ih]

/-- An address below every entry reads as untouched. -/
theorem ArrayMem.get_below {m : ArrayMem} {lo a : Nat} (h : ArrayMem.wfFrom lo m = true) (ha : a < lo) :
    m.get a = .untouched := by
  induction m generalizing lo with
  | nil => rfl
  | cons kv rest ih =>
    obtain ⟨k, v⟩ := kv
    simp only [ArrayMem.wfFrom, Bool.and_eq_true, decide_eq_true_eq] at h
    have hne : k ≠ a := by omega
    simp only [ArrayMem.get, hne, if_false]
    exact ih h.2 (by omega)

/-- Two memories in canonical form that read the same are the same list. -/
theorem ArrayMem.ext_get {m n : ArrayMem} (hm : m.wf = true) (hn : n.wf = true) (h : ∀ a, m.get a = n.get a) :
    m = n := by
  suffices H : ∀ (m n : ArrayMem) (lo : Nat), ArrayMem.wfFrom lo m = true → ArrayMem.wfFrom lo n = true →
      (∀ a, m.get a = n.get a) → m = n from H m n 0 hm hn h
  clear hm hn h m n
  intro m
  induction m with
  | nil =>
    intro n lo _ hn h
    cases n with
    | nil => rfl
    | cons kv rest =>
      obtain ⟨k, v⟩ := kv
      simp only [ArrayMem.wfFrom, Bool.and_eq_true, decide_eq_true_eq, bne_iff_ne, ne_eq] at hn
      have := h k
      simp only [ArrayMem.get, if_true] at this
      exact absurd this.symm hn.1.2
  | cons kv rest ih =>
    obtain ⟨k, v⟩ := kv
    intro n lo hm hn h
    simp only [ArrayMem.wfFrom, Bool.and_eq_true, decide_eq_true_eq, bne_iff_ne, ne_eq] at hm
    cases n with
    | nil =>
      have := h k
      simp only [ArrayMem.get, if_true] at this
      exact absurd this hm.1.2
    | cons kv' rest' =>
      obtain ⟨k', v'⟩ := kv'
      simp only [ArrayMem.wfFrom, Bool.and_eq_true, decide_eq_true_eq, bne_iff_ne, ne_eq] at hn
      have hk : k = k' := by
        rcases Nat.lt_trichotomy k k' with hlt | he | hlt
        · have := h k
          simp only [ArrayMem.get, if_true, if_neg (show ¬ k' = k by omega)] at this
          exact absurd (this.trans (ArrayMem.get_below hn.2 (by omega))) hm.1.2
        · exact he
        · have := h k'
          simp only [ArrayMem.get, if_true, if_neg (show ¬ k = k' by omega)] at this
          exact absurd (this.symm.trans (ArrayMem.get_below hm.2 (by omega))) hn.1.2
      subst hk
      have hv : v = v' := by simpa [ArrayMem.get] using h k
      subst hv
      congr 1
      refine ih rest' (k + 1) hm.2 hn.2 fun a => ?_
      by_cases ha : a = k
      · subst ha
        rw [ArrayMem.get_below hm.2 (by omega), ArrayMem.get_below hn.2 (by omega)]
      · have := h a
        simpa [ArrayMem.get, Ne.symm ha] using this

theorem ArrayMem.get_put_other (m : ArrayMem) {a b : Nat} (w : StoredWord) (hab : b ≠ a) :
    (m.put a w).get b = m.get b := by
  induction m with
  | nil =>
    by_cases hw : w = .untouched
    · simp [ArrayMem.put, hw]
    · simp [ArrayMem.put, hw, ArrayMem.get, Ne.symm hab]
  | cons kv rest ih =>
    obtain ⟨k, v⟩ := kv
    by_cases h1 : a < k
    · by_cases hw : w = .untouched <;> simp [ArrayMem.put, h1, hw, ArrayMem.get, Ne.symm hab]
    · by_cases h2 : a = k
      · subst h2
        by_cases hw : w = .untouched <;> simp [ArrayMem.put, hw, ArrayMem.get, Ne.symm hab]
      · simp [ArrayMem.put, h1, h2, ArrayMem.get, ih]

theorem ArrayMem.put_wfFrom (m : ArrayMem) (a : Nat) (w : StoredWord) :
    ∀ lo, lo ≤ a → ArrayMem.wfFrom lo m = true → ArrayMem.wfFrom lo (m.put a w) = true := by
  induction m with
  | nil =>
    intro lo hlo _
    by_cases hw : w = .untouched <;> simp [ArrayMem.put, ArrayMem.wfFrom, hw, hlo]
  | cons kv rest ih =>
    obtain ⟨k, v⟩ := kv
    intro lo hlo h
    have h' := h
    simp only [ArrayMem.wfFrom, Bool.and_eq_true, decide_eq_true_eq] at h
    obtain ⟨⟨hk, hv⟩, hr⟩ := h
    have hweak : ∀ (l : ArrayMem) (p q : Nat), p ≤ q → ArrayMem.wfFrom q l = true → ArrayMem.wfFrom p l = true := by
      intro l
      cases l with
      | nil => intros; rfl
      | cons x xs =>
        obtain ⟨kx, vx⟩ := x
        intro p q hpq hq
        simp only [ArrayMem.wfFrom, Bool.and_eq_true, decide_eq_true_eq] at hq ⊢
        exact ⟨⟨by omega, hq.1.2⟩, hq.2⟩
    by_cases h1 : a < k
    · by_cases hw : w = .untouched
      · simp only [ArrayMem.put, h1, if_true, hw]
        exact h'
      · have h3 : a + 1 ≤ k := by omega
        simp only [ArrayMem.put, h1, if_true, hw, if_false, ArrayMem.wfFrom, Bool.and_eq_true, decide_eq_true_eq,
          bne_iff_ne, ne_eq, not_false_eq_true, and_true]
        exact ⟨hlo, ⟨h3, by simpa using hv⟩, hr⟩
    · by_cases h2 : a = k
      · subst h2
        by_cases hw : w = .untouched
        · simp only [ArrayMem.put, h1, if_true, hw, if_false]
          exact hweak rest lo (a + 1) (by omega) hr
        · simp only [ArrayMem.put, h1, if_true, hw, if_false, ArrayMem.wfFrom, Bool.and_eq_true, decide_eq_true_eq,
            bne_iff_ne, ne_eq, not_false_eq_true, and_true]
          exact ⟨hlo, hr⟩
      · simp only [ArrayMem.put, h1, h2, if_false, ArrayMem.wfFrom, Bool.and_eq_true, decide_eq_true_eq]
        exact ⟨⟨hk, hv⟩, ih (k + 1) (by omega) hr⟩

/-- A write keeps the canonical form. -/
theorem ArrayMem.put_wf (m : ArrayMem) (a : Nat) (w : StoredWord) (h : m.wf = true) : (m.put a w).wf = true :=
  ArrayMem.put_wfFrom m a w 0 (Nat.zero_le a) h

/-- The memory after reset is in canonical form. -/
theorem State.reset_array_wf : State.reset.array.wf = true := rfl

/-- Storing a word keeps the canonical form. -/
theorem State.storeWord_wf (s : State) (a : Addr) (d : Word) (h : s.array.wf = true) :
    (s.storeWord a d).array.wf = true :=
  ArrayMem.put_wf _ _ _ h

/-- A disturbance keeps the canonical form. -/
theorem State.disturb_wf (s : State) (a : Addr) (flips : Bits39) (h : s.array.wf = true) :
    (s.disturb a flips).array.wf = true :=
  ArrayMem.put_wf _ _ _ h

/-- A stored word reads back, fresh. -/
theorem State.storeWord_wordAt_same (s : State) (a : Addr) (d : Word) : (s.storeWord a d).wordAt a = .fresh d :=
  ArrayMem.get_put_of_touched _ _ (by simp [StoredWord.fresh, StoredWord.untouched])

/-- Storing a word leaves every other word alone. -/
theorem State.storeWord_wordAt_other (s : State) {a b : Addr} (d : Word) (h : b ≠ a) :
    (s.storeWord a d).wordAt b = s.wordAt b :=
  ArrayMem.get_put_other _ _ fun e => h (BitVec.eq_of_toNat_eq e)

/-- A word with fresh check bits reads CLEAN, with exactly the data written (R7). -/
theorem StoredWord.fresh_read (a : Addr) (d : Word) : (StoredWord.fresh d).read a = (d, .clean) := by
  have hp : positions 0#39 = [] := by decide
  simp [StoredWord.read, StoredWord.fresh, StoredWord.outcome, StoredWord.sampled, StoredWord.stored, deliveredData, hp]

end Sys2Proof.Machine
end

