-- ==== Sys2Proof/Laws/Kept.lean ====
section
/-! SUPPORT. What the part's operations never touch: the RESET pin, the array, the region table, the settings, the model's
own fields and the queue of commands. One lemma per operation. -/

namespace Sys2Proof.Machine

set_option linter.unusedTactic false
set_option linter.unreachableTactic false
set_option linter.unnecessarySeqFocus false

/-- The blocks that no event within the part changes are the same in `t` as in `s`. -/
structure State.Kept (s t : State) : Prop where
  reset   : t.resetAsserted = s.resetAsserted
  array   : t.array = s.array
  acu     : t.acu = s.acu
  cfg     : t.cfg = s.cfg
  own     : t.own = s.own
  pending : t.pending = s.pending

theorem State.Kept.refl (s : State) : s.Kept s := ⟨rfl, rfl, rfl, rfl, rfl, rfl⟩

theorem State.Kept.trans {s t u : State} (h : s.Kept t) (k : t.Kept u) : s.Kept u :=
  ⟨k.reset.trans h.reset, k.array.trans h.array, k.acu.trans h.acu, k.cfg.trans h.cfg, k.own.trans h.own,
   k.pending.trans h.pending⟩

variable {s t : State}

@[simp] theorem State.kept_setAif (x : Aif) : s.Kept (t.setAif x) ↔ s.Kept t :=
  ⟨fun h => ⟨h.reset, h.array, h.acu, h.cfg, h.own, h.pending⟩, fun h => ⟨h.reset, h.array, h.acu, h.cfg, h.own, h.pending⟩⟩
@[simp] theorem State.kept_setMb (x : MergeBuffer) : s.Kept (t.setMb x) ↔ s.Kept t :=
  ⟨fun h => ⟨h.reset, h.array, h.acu, h.cfg, h.own, h.pending⟩, fun h => ⟨h.reset, h.array, h.acu, h.cfg, h.own, h.pending⟩⟩
@[simp] theorem State.kept_setWlt (x : List LockEntry) : s.Kept (t.setWlt x) ↔ s.Kept t :=
  ⟨fun h => ⟨h.reset, h.array, h.acu, h.cfg, h.own, h.pending⟩, fun h => ⟨h.reset, h.array, h.acu, h.cfg, h.own, h.pending⟩⟩
@[simp] theorem State.kept_setArb (x : Arbiter) : s.Kept (t.setArb x) ↔ s.Kept t :=
  ⟨fun h => ⟨h.reset, h.array, h.acu, h.cfg, h.own, h.pending⟩, fun h => ⟨h.reset, h.array, h.acu, h.cfg, h.own, h.pending⟩⟩
@[simp] theorem State.kept_setCtl (x : Control) : s.Kept (t.setCtl x) ↔ s.Kept t :=
  ⟨fun h => ⟨h.reset, h.array, h.acu, h.cfg, h.own, h.pending⟩, fun h => ⟨h.reset, h.array, h.acu, h.cfg, h.own, h.pending⟩⟩
@[simp] theorem State.kept_setPpt (x : Ppt) : s.Kept (t.setPpt x) ↔ s.Kept t :=
  ⟨fun h => ⟨h.reset, h.array, h.acu, h.cfg, h.own, h.pending⟩, fun h => ⟨h.reset, h.array, h.acu, h.cfg, h.own, h.pending⟩⟩
@[simp] theorem State.kept_setSce (x : Scrub) : s.Kept (t.setSce x) ↔ s.Kept t :=
  ⟨fun h => ⟨h.reset, h.array, h.acu, h.cfg, h.own, h.pending⟩, fun h => ⟨h.reset, h.array, h.acu, h.cfg, h.own, h.pending⟩⟩
@[simp] theorem State.kept_setElog (x : ErrorLog) : s.Kept (t.setElog x) ↔ s.Kept t :=
  ⟨fun h => ⟨h.reset, h.array, h.acu, h.cfg, h.own, h.pending⟩, fun h => ⟨h.reset, h.array, h.acu, h.cfg, h.own, h.pending⟩⟩
@[simp] theorem State.kept_setIrq (x : Irq) : s.Kept (t.setIrq x) ↔ s.Kept t :=
  ⟨fun h => ⟨h.reset, h.array, h.acu, h.cfg, h.own, h.pending⟩, fun h => ⟨h.reset, h.array, h.acu, h.cfg, h.own, h.pending⟩⟩
@[simp] theorem State.kept_setSp (p : SpId) (x : StreamPort) : s.Kept (t.setSp p x) ↔ s.Kept t := by
  constructor <;> intro h <;> cases p <;> exact ⟨h.reset, h.array, h.acu, h.cfg, h.own, h.pending⟩

@[simp] theorem State.kept_logRecord (r : ErrorRecord) : s.Kept (t.logRecord r) ↔ s.Kept t := by
  unfold State.logRecord
  (try dsimp only)
  (repeat' split) <;> (try dsimp only) <;> (repeat' split) <;> simp
@[simp] theorem State.kept_countOutcome (o : DecodeOutcome) : s.Kept (t.countOutcome o) ↔ s.Kept t := by
  unfold State.countOutcome
  (try dsimp only)
  (repeat' split) <;> (try dsimp only) <;> (repeat' split) <;> simp
@[simp] theorem State.kept_recordOutcome (o : DecodeOutcome) (r : ErrorRecord) : s.Kept (t.recordOutcome o r) ↔ s.Kept t := by
  unfold State.recordOutcome
  (try dsimp only)
  (repeat' split) <;> (try dsimp only) <;> (repeat' split) <;> simp
@[simp] theorem State.kept_reportRead (o : DecodeOutcome) (src : Source) (a : Addr) (k : AccessType) (g : Option Tag) : s.Kept (t.reportRead o src a k g) ↔ s.Kept t := by
  unfold State.reportRead
  (try dsimp only)
  (repeat' split) <;> (try dsimp only) <;> (repeat' split) <;> simp
@[simp] theorem State.kept_setSlot (r : Requester) (x : Option Request) : s.Kept (t.setSlot r x) ↔ s.Kept t := by
  unfold State.setSlot
  (try dsimp only)
  (repeat' split) <;> (try dsimp only) <;> (repeat' split) <;> simp
@[simp] theorem State.kept_request (r : Requester) (k : AccessKind) (a : Addr) : s.Kept (t.request r k a) ↔ s.Kept t := by
  unfold State.request
  (try dsimp only)
  (repeat' split) <;> (try dsimp only) <;> (repeat' split) <;> simp
@[simp] theorem State.kept_withdrawScrub  : s.Kept t.withdrawScrub ↔ s.Kept t := by
  unfold State.withdrawScrub
  (try dsimp only)
  (repeat' split) <;> (try dsimp only) <;> (repeat' split) <;> simp
@[simp] theorem State.kept_beginAccess (k : AccessKind) (r : Requester) (a : Addr) (d : Option Word) : s.Kept (t.beginAccess k r a d) ↔ s.Kept t := by
  unfold State.beginAccess
  (try dsimp only)
  (repeat' split) <;> (try dsimp only) <;> (repeat' split) <;> simp
@[simp] theorem State.kept_pairedWrite (a : Access) (x : Word × DecodeOutcome) (d : Word) : s.Kept (t.pairedWrite a x d) ↔ s.Kept t := by
  unfold State.pairedWrite
  (try dsimp only)
  (repeat' split) <;> (try dsimp only) <;> (repeat' split) <;> simp
@[simp] theorem State.kept_setPpPhase (ph : PpPhase) : s.Kept (t.setPpPhase ph) ↔ s.Kept t := by
  unfold State.setPpPhase
  (try dsimp only)
  (repeat' split) <;> (try dsimp only) <;> (repeat' split) <;> simp
@[simp] theorem State.kept_ppComplete (st : CplStatus) (d : Word) : s.Kept (t.ppComplete st d) ↔ s.Kept t := by
  unfold State.ppComplete
  (try dsimp only)
  (repeat' split) <;> (try dsimp only) <;> (repeat' split) <;> simp
@[simp] theorem State.kept_send (p : SpId) (ms : List LinkMsg) : s.Kept (t.send p ms) ↔ s.Kept t := by
  unfold State.send
  (try dsimp only)
  (repeat' split) <;> (try dsimp only) <;> (repeat' split) <;> simp
@[simp] theorem State.kept_setBurst (p : SpId) (b : Option Burst) : s.Kept (t.setBurst p b) ↔ s.Kept t := by
  unfold State.setBurst
  (try dsimp only)
  (repeat' split) <;> (try dsimp only) <;> (repeat' split) <;> simp
@[simp] theorem State.kept_awaitBeat (p : SpId) (b : Burst) (ph : BurstPhase) : s.Kept (t.awaitBeat p b ph) ↔ s.Kept t := by
  unfold State.awaitBeat
  (try dsimp only)
  (repeat' split) <;> (try dsimp only) <;> (repeat' split) <;> simp
@[simp] theorem State.kept_endBurst (p : SpId) (st : EndStatus) : s.Kept (t.endBurst p st) ↔ s.Kept t := by
  unfold State.endBurst
  (try dsimp only)
  (repeat' split) <;> (try dsimp only) <;> (repeat' split) <;> simp
@[simp] theorem State.kept_suspend (p : SpId) (c : SuspendCause) : s.Kept (t.suspend p c) ↔ s.Kept t := by
  unfold State.suspend
  (try dsimp only)
  (repeat' split) <;> (try dsimp only) <;> (repeat' split) <;> simp
@[simp] theorem State.kept_mbCoalesce (e : Fin 8) (m : MergeWrite) : s.Kept (t.mbCoalesce e m) ↔ s.Kept t := by
  unfold State.mbCoalesce
  (try dsimp only)
  (repeat' split) <;> (try dsimp only) <;> (repeat' split) <;> simp
@[simp] theorem State.kept_mbAllocate (e : Fin 8) (m : MergeWrite) : s.Kept (t.mbAllocate e m) ↔ s.Kept t := by
  unfold State.mbAllocate
  (try dsimp only)
  (repeat' split) <;> (try dsimp only) <;> (repeat' split) <;> simp
@[simp] theorem State.kept_mbWait (m : MergeWrite) : s.Kept (t.mbWait m) ↔ s.Kept t := by
  unfold State.mbWait
  (try dsimp only)
  (repeat' split) <;> (try dsimp only) <;> (repeat' split) <;> simp
@[simp] theorem State.kept_mbHold (m : MergeWrite) : s.Kept (t.mbHold m) ↔ s.Kept t := by
  unfold State.mbHold
  (try dsimp only)
  (repeat' split) <;> (try dsimp only) <;> (repeat' split) <;> simp
@[simp] theorem State.kept_mbOffer (m : MergeWrite) : s.Kept (t.mbOffer m).2 ↔ s.Kept t := by
  unfold State.mbOffer
  (repeat' split) <;> simp
@[simp] theorem State.kept_beatAccepted (p : SpId) : s.Kept (t.beatAccepted p) ↔ s.Kept t := by
  unfold State.beatAccepted
  (try dsimp only)
  (repeat' split) <;> (try dsimp only) <;> (repeat' split) <;> simp
@[simp] theorem State.kept_mbTell (q : Port) (a : MbAnswer) : s.Kept (t.mbTell q a) ↔ s.Kept t := by
  unfold State.mbTell
  (try dsimp only)
  (repeat' split) <;> (try dsimp only) <;> (repeat' split) <;> simp
@[simp] theorem State.kept_mergeIssue (m : MergeWrite) : s.Kept (t.mergeIssue m) ↔ s.Kept t := by
  unfold State.mergeIssue
  (try dsimp only)
  (repeat' split) <;> (try dsimp only) <;> (repeat' split) <;> simp
@[simp] theorem State.kept_mergeWithdraw (q : Port) : s.Kept (t.mergeWithdraw q) ↔ s.Kept t := by
  unfold State.mergeWithdraw
  (try dsimp only)
  (repeat' split) <;> (try dsimp only) <;> (repeat' split) <;> simp
@[simp] theorem State.kept_answerAtomic (p : SpId) (g : Tag) (r : LockResult) : s.Kept (t.answerAtomic p g r) ↔ s.Kept t := by
  unfold State.answerAtomic
  (try dsimp only)
  (repeat' split) <;> (try dsimp only) <;> (repeat' split) <;> simp
@[simp] theorem State.kept_deliver (e : LockEntry) (r : LockResult) : s.Kept (t.deliver e r) ↔ s.Kept t := by
  unfold State.deliver
  (try dsimp only)
  (repeat' split) <;> (try dsimp only) <;> (repeat' split) <;> simp
@[simp] theorem State.kept_eraseLock (q : Port) : s.Kept (t.eraseLock q) ↔ s.Kept t := by
  unfold State.eraseLock
  (try dsimp only)
  (repeat' split) <;> (try dsimp only) <;> (repeat' split) <;> simp
@[simp] theorem State.kept_setLockState (q : Port) (st : LockState) : s.Kept (t.setLockState q st) ↔ s.Kept t := by
  unfold State.setLockState
  (try dsimp only)
  (repeat' split) <;> (try dsimp only) <;> (repeat' split) <;> simp
@[simp] theorem State.kept_releaseHeldAtomic (w : Addr) : s.Kept (t.releaseHeldAtomic w) ↔ s.Kept t := by
  unfold State.releaseHeldAtomic
  (try dsimp only)
  (repeat' split) <;> (try dsimp only) <;> (repeat' split) <;> simp
@[simp] theorem State.kept_lockNext (n : Nat) (w : Addr) : s.Kept (State.lockNext n w t) ↔ s.Kept t := by
  induction n generalizing t with
  | zero => simp [State.lockNext]
  | succ n ih =>
    unfold State.lockNext
    (repeat' split) <;> simp [ih]
@[simp] theorem State.kept_aeUpdate  : s.Kept t.aeUpdate ↔ s.Kept t := by
  unfold State.aeUpdate
  (try dsimp only)
  (repeat' split) <;> (try dsimp only) <;> (repeat' split) <;> simp
@[simp] theorem State.kept_createLock (e : LockEntry) : s.Kept (t.createLock e) ↔ s.Kept t := by
  unfold State.createLock
  (try dsimp only)
  (repeat' split) <;> (try dsimp only) <;> (repeat' split) <;> simp
@[simp] theorem State.kept_removeLock (e : LockEntry) (r : Option LockResult) : s.Kept (t.removeLock e r) ↔ s.Kept t := by
  unfold State.removeLock
  (try dsimp only)
  (repeat' split) <;> (try dsimp only) <;> (repeat' split) <;> simp
@[simp] theorem State.kept_cancelLock (q : Port) : s.Kept (t.cancelLock q) ↔ s.Kept t := by
  unfold State.cancelLock
  (try dsimp only)
  (repeat' split) <;> (try dsimp only) <;> (repeat' split) <;> simp
@[simp] theorem State.kept_logFault (k : RecordKind) (q : Port) (a : Addr) (x : AccessType) (g : Tag) : s.Kept (t.logFault k q a x g) ↔ s.Kept t := by
  unfold State.logFault
  (try dsimp only)
  (repeat' split) <;> (try dsimp only) <;> (repeat' split) <;> simp
@[simp] theorem State.kept_ppLookup (r : PpRequest) : s.Kept (t.ppLookup r) ↔ s.Kept t := by
  unfold State.ppLookup
  (try dsimp only)
  (repeat' split) <;> (try dsimp only) <;> (repeat' split) <;> simp
@[simp] theorem State.kept_ppLockStep (r : PpRequest) : s.Kept (t.ppLockStep r) ↔ s.Kept t := by
  unfold State.ppLockStep
  (try dsimp only)
  (repeat' split) <;> (try dsimp only) <;> (repeat' split) <;> simp
@[simp] theorem State.kept_ppFenceStep (r : PpRequest) : s.Kept (t.ppFenceStep r) ↔ s.Kept t := by
  unfold State.ppFenceStep
  (try dsimp only)
  (repeat' split) <;> (try dsimp only) <;> (repeat' split) <;> simp
@[simp] theorem State.kept_ppStart (r : PpRequest) : s.Kept (t.ppStart r) ↔ s.Kept t := by
  unfold State.ppStart
  (try dsimp only)
  (repeat' split) <;> (try dsimp only) <;> (repeat' split) <;> simp
@[simp] theorem State.kept_prqDispatch  : s.Kept t.prqDispatch ↔ s.Kept t := by
  unfold State.prqDispatch
  (try dsimp only)
  (repeat' split) <;> (try dsimp only) <;> (repeat' split) <;> simp
@[simp] theorem State.kept_ppFenceRelease  : s.Kept t.ppFenceRelease ↔ s.Kept t := by
  unfold State.ppFenceRelease
  (try dsimp only)
  (repeat' split) <;> (try dsimp only) <;> (repeat' split) <;> simp
@[simp] theorem State.kept_ppLockRelease  : s.Kept t.ppLockRelease ↔ s.Kept t := by
  unfold State.ppLockRelease
  (try dsimp only)
  (repeat' split) <;> (try dsimp only) <;> (repeat' split) <;> simp
@[simp] theorem State.kept_flushComplete  : s.Kept t.flushComplete ↔ s.Kept t := by
  unfold State.flushComplete
  (try dsimp only)
  (repeat' split) <;> (try dsimp only) <;> (repeat' split) <;> simp
@[simp] theorem State.kept_holdBurst (p : SpId) (b : Burst) (ph : BurstPhase) (h : HoldAt) : s.Kept (t.holdBurst p b ph h) ↔ s.Kept t := by
  unfold State.holdBurst
  (try dsimp only)
  (repeat' split) <;> (try dsimp only) <;> (repeat' split) <;> simp
@[simp] theorem State.kept_readRequest (p : SpId) (b : Burst) : s.Kept (t.readRequest p b) ↔ s.Kept t := by
  unfold State.readRequest
  (try dsimp only)
  (repeat' split) <;> (try dsimp only) <;> (repeat' split) <;> simp
@[simp] theorem State.kept_readWords (n : Nat) (p : SpId) : s.Kept (State.readWords n p t) ↔ s.Kept t := by
  induction n generalizing t with
  | zero => simp [State.readWords]
  | succ n ih =>
    unfold State.readWords
    (repeat' split) <;> (try dsimp only) <;> (repeat' split) <;> simp [ih]
@[simp] theorem State.kept_readOn (p : SpId) : s.Kept (t.readOn p) ↔ s.Kept t := by
  unfold State.readOn
  (try dsimp only)
  (repeat' split) <;> (try dsimp only) <;> (repeat' split) <;> simp
@[simp] theorem State.kept_readDelivered (p : SpId) (d : Word) (o : DecodeOutcome) : s.Kept (t.readDelivered p d o) ↔ s.Kept t := by
  unfold State.readDelivered
  (try dsimp only)
  (repeat' split) <;> (try dsimp only) <;> (repeat' split) <;> simp
@[simp] theorem State.kept_takeWriteBeat (p : SpId) (b : Burst) (d : Word) (m : LaneMask) : s.Kept (t.takeWriteBeat p b d m) ↔ s.Kept t := by
  unfold State.takeWriteBeat
  (try dsimp only)
  (repeat' split) <;> (try dsimp only) <;> (repeat' split) <;> simp
@[simp] theorem State.kept_issueHeldBeat (p : SpId) : s.Kept (t.issueHeldBeat p) ↔ s.Kept t := by
  unfold State.issueHeldBeat
  (try dsimp only)
  (repeat' split) <;> (try dsimp only) <;> (repeat' split) <;> simp
@[simp] theorem State.kept_blockOperand (p : SpId) : s.Kept (t.blockOperand p) ↔ s.Kept t := by
  unfold State.blockOperand
  (try dsimp only)
  (repeat' split) <;> (try dsimp only) <;> (repeat' split) <;> simp
@[simp] theorem State.kept_admit (p : SpId) : s.Kept (t.admitAtomic p) ↔ s.Kept t := by
  unfold State.admitAtomic
  (try dsimp only)
  (repeat' split) <;> (try dsimp only) <;> (repeat' split) <;> simp
@[simp] theorem State.kept_takeOperand (p : SpId) (b : Burst) (d : Word) : s.Kept (t.takeOperand p b d) ↔ s.Kept t := by
  unfold State.takeOperand
  (try dsimp only)
  (repeat' split) <;> (try dsimp only) <;> (repeat' split) <;> simp
@[simp] theorem State.kept_srqDispatch (p : SpId) : s.Kept (t.srqDispatch p) ↔ s.Kept t := by
  unfold State.srqDispatch
  (try dsimp only)
  (repeat' split) <;> (try dsimp only) <;> (repeat' split) <;> simp
@[simp] theorem State.kept_refuseHeader (p : SpId) (f : Frame) (c : ProtocolCause) : s.Kept (t.refuseHeader p f c) ↔ s.Kept t := by
  unfold State.refuseHeader
  (try dsimp only)
  (repeat' split) <;> (try dsimp only) <;> (repeat' split) <;> simp
@[simp] theorem State.kept_takeHeader (p : SpId) (f : Frame) : s.Kept (t.takeHeader p f) ↔ s.Kept t := by
  unfold State.takeHeader
  (try dsimp only)
  (repeat' split) <;> (try dsimp only) <;> (repeat' split) <;> simp
@[simp] theorem State.kept_takeBeat (p : SpId) (f : Frame) : s.Kept (t.takeBeat p f) ↔ s.Kept t := by
  unfold State.takeBeat
  (try dsimp only)
  (repeat' split) <;> (try dsimp only) <;> (repeat' split) <;> simp
@[simp] theorem State.kept_abortQueued (p : SpId) (g : Tag) : s.Kept (t.abortQueued p g) ↔ s.Kept t := by
  unfold State.abortQueued
  (try dsimp only)
  (repeat' split) <;> (try dsimp only) <;> (repeat' split) <;> simp
@[simp] theorem State.kept_abortBurst (p : SpId) (b : Burst) : s.Kept (t.abortBurst p b) ↔ s.Kept t := by
  unfold State.abortBurst
  (try dsimp only)
  (repeat' split) <;> (try dsimp only) <;> (repeat' split) <;> simp
@[simp] theorem State.kept_takeAbort (p : SpId) (g : Tag) : s.Kept (t.takeAbort p g) ↔ s.Kept t := by
  unfold State.takeAbort
  (try dsimp only)
  (repeat' split) <;> (try dsimp only) <;> (repeat' split) <;> simp
@[simp] theorem State.kept_takeFrame (p : SpId) (f : Frame) : s.Kept (t.takeFrame p f) ↔ s.Kept t := by
  unfold State.takeFrame
  (try dsimp only)
  (repeat' split) <;> (try dsimp only) <;> (repeat' split) <;> simp
@[simp] theorem State.kept_arrive (p : SpId) (f : Frame) : s.Kept (t.arrive p f) ↔ s.Kept t := by
  unfold State.arrive
  (try dsimp only)
  (repeat' split) <;> (try dsimp only) <;> (repeat' split) <;> simp
@[simp] theorem State.kept_linkTake (p : SpId) : s.Kept (t.linkTake p) ↔ s.Kept t := by
  unfold State.linkTake
  (try dsimp only)
  (repeat' split) <;> (try dsimp only) <;> (repeat' split) <;> simp
@[simp] theorem State.kept_spRelease (p : SpId) : s.Kept (t.spRelease p) ↔ s.Kept t := by
  unfold State.spRelease
  (try dsimp only)
  (repeat' split) <;> (try dsimp only) <;> (repeat' split) <;> simp
@[simp] theorem State.kept_beatExpiry (p : SpId) : s.Kept (t.beatExpiry p) ↔ s.Kept t := by
  unfold State.beatExpiry
  (try dsimp only)
  (repeat' split) <;> (try dsimp only) <;> (repeat' split) <;> simp
@[simp] theorem State.kept_resetBurst (p : SpId) : s.Kept (t.resetBurst p) ↔ s.Kept t := by
  unfold State.resetBurst
  (try dsimp only)
  (repeat' split) <;> (try dsimp only) <;> (repeat' split) <;> simp
@[simp] theorem State.kept_portReset (p : SpId) : s.Kept (t.portReset p) ↔ s.Kept t := by
  unfold State.portReset
  (try dsimp only)
  (repeat' split) <;> (try dsimp only) <;> (repeat' split) <;> simp
@[simp] theorem State.kept_portDisable (p : SpId) : s.Kept (t.portDisable p) ↔ s.Kept t := by
  unfold State.portDisable
  (try dsimp only)
  (repeat' split) <;> (try dsimp only) <;> (repeat' split) <;> simp
@[simp] theorem State.kept_lockRelease (q : Port) : s.Kept (t.lockRelease q) ↔ s.Kept t := by
  unfold State.lockRelease
  (try dsimp only)
  (repeat' split) <;> (try dsimp only) <;> (repeat' split) <;> simp
@[simp] theorem State.kept_fenceRelease (q : Port) : s.Kept (t.fenceRelease q) ↔ s.Kept t := by
  unfold State.fenceRelease
  (try dsimp only)
  (repeat' split) <;> (try dsimp only) <;> (repeat' split) <;> simp
@[simp] theorem State.kept_allocateWaiter  : s.Kept t.allocateWaiter ↔ s.Kept t := by
  unfold State.allocateWaiter
  (try dsimp only)
  (repeat' split) <;> (try dsimp only) <;> (repeat' split) <;> simp
@[simp] theorem State.kept_forcedSignal  : s.Kept t.forcedSignal ↔ s.Kept t := by
  unfold State.forcedSignal
  (try dsimp only)
  (repeat' split) <;> (try dsimp only) <;> (repeat' split) <;> simp
@[simp] theorem State.kept_drainStart  : s.Kept t.drainStart ↔ s.Kept t := by
  unfold State.drainStart
  (try dsimp only)
  (repeat' split) <;> (try dsimp only) <;> (repeat' split) <;> simp
@[simp] theorem State.kept_resolveRequest  : s.Kept t.resolveRequest ↔ s.Kept t := by
  unfold State.resolveRequest
  (try dsimp only)
  (repeat' split) <;> (try dsimp only) <;> (repeat' split) <;> simp
@[simp] theorem State.kept_intervalExpiry  : s.Kept t.intervalExpiry ↔ s.Kept t := by
  unfold State.intervalExpiry
  (try dsimp only)
  (repeat' split) <;> (try dsimp only) <;> (repeat' split) <;> simp
@[simp] theorem State.kept_quiesceComplete  : s.Kept t.quiesceComplete ↔ s.Kept t := by
  unfold State.quiesceComplete
  (try dsimp only)
  (repeat' split) <;> (try dsimp only) <;> (repeat' split) <;> simp
@[simp] theorem State.kept_arbGrant (r : Requester) (x : Bool) : s.Kept (t.arbGrant r x) ↔ s.Kept t := by
  unfold State.arbGrant
  (try dsimp only)
  (repeat' split) <;> (try dsimp only) <;> (repeat' split) <;> simp
@[simp] theorem State.kept_burstGranted (p : SpId) : s.Kept (t.burstGranted p) ↔ s.Kept t := by
  unfold State.burstGranted
  (try dsimp only)
  (repeat' split) <;> (try dsimp only) <;> (repeat' split) <;> simp
@[simp] theorem State.kept_grantPort (q : Port) (r : Request) : s.Kept (t.grantPort q r) ↔ s.Kept t := by
  unfold State.grantPort
  (try dsimp only)
  (repeat' split) <;> (try dsimp only) <;> (repeat' split) <;> simp
@[simp] theorem State.kept_grantDrain  : s.Kept t.grantDrain ↔ s.Kept t := by
  unfold State.grantDrain
  (try dsimp only)
  (repeat' split) <;> (try dsimp only) <;> (repeat' split) <;> simp
@[simp] theorem State.kept_grantAtomic  : s.Kept t.grantAtomic ↔ s.Kept t := by
  unfold State.grantAtomic
  (try dsimp only)
  (repeat' split) <;> (try dsimp only) <;> (repeat' split) <;> simp
@[simp] theorem State.kept_grantScrub  : s.Kept t.grantScrub ↔ s.Kept t := by
  unfold State.grantScrub
  (try dsimp only)
  (repeat' split) <;> (try dsimp only) <;> (repeat' split) <;> simp
@[simp] theorem State.kept_grant  : s.Kept t.grant ↔ s.Kept t := by
  unfold State.grant
  (try dsimp only)
  (repeat' split) <;> (try dsimp only) <;> (repeat' split) <;> simp
@[simp] theorem State.kept_fire (d : Due) : s.Kept (t.fire d) ↔ s.Kept t := by
  unfold State.fire
  (try dsimp only)
  (repeat' split) <;> (try dsimp only) <;> (repeat' split) <;> simp

/-- A due event leaves those blocks alone. -/
theorem State.fire_kept (s : State) (d : Due) : s.Kept (s.fire d) := (State.kept_fire d).2 (.refl s)

end Sys2Proof.Machine
end

