-- ==== Sys2Proof/Laws/Settle.lean ====
section
/-! SUPPORT. Taking the due events: an induction for what every due event keeps, the frame of settling, and the laws of
`step` and `exec` that the statements' proofs start from. -/

namespace Sys2Proof.Machine

/-- What is due does not depend on how many free values have been taken. -/
theorem State.bumpFree_due (s : State) : s.bumpFree.due = s.due := rfl

theorem getD_mem {α : Type} (l : List α) (n : Nat) (d : α) (h : d ∈ l) : l.getD n d ∈ l := by
  rw [List.getD_eq_getElem?_getD]
  cases hn : l[n]? with
  | none => simpa using h
  | some x => simpa using List.mem_of_getElem? hn

theorem mem_oneIf {c : Bool} {d e : Due} : d ∈ oneIf c e ↔ c = true ∧ d = e := by
  unfold oneIf
  split <;> simp_all

/-- The condition under which each of the part's own events is due, out of reset; R26 can put one off (log 3). -/
def State.dueCondition (s : State) : Due → Bool
  | .prqDispatch => s.prqReady
  | .srqDispatch p => s.srqReady p
  | .linkTake p => s.linkReady p
  | .lockRelease q => s.lockReleasable q
  | .fenceRelease q => s.fenceReleasable q
  | .waiterAlloc => s.nextWaiter.isSome
  | .forcedSignal => s.signalled.isSome
  | .flushDone => s.flushReady
  | .drainStart => s.drainReady
  | .resolveRequest => s.resolveReady
  | .beatExpiry p => s.expiryReady p
  | .intervalExpiry => s.intervalReady
  | .grant => s.grantReady && !s.quiesceReady && (!s.own.backToIdle || s.dueWork.isEmpty)
  | .quiesce => s.quiesceReady

/-- An event is due only under its condition. -/
theorem State.dueCondition_of_due {s : State} {d : Due} (h : d ∈ s.due) : s.dueCondition d = true := by
  unfold State.due at h
  split at h
  · simp at h
  · simp only [List.mem_append, mem_oneIf] at h
    rcases h with (h | ⟨h, rfl⟩) | ⟨h, rfl⟩
    · unfold State.dueWork at h
      dsimp only at h
      split at h
      · simp only [List.mem_cons, List.mem_append, mem_oneIf] at h
        rcases h with rfl | (⟨hc, rfl⟩ | ⟨hc, rfl⟩) | ⟨hc, rfl⟩ <;> assumption
      · simp only [List.mem_append, mem_oneIf, or_assoc] at h
        rcases h with ⟨hc, rfl⟩ | ⟨hc, rfl⟩ | ⟨hc, rfl⟩ | ⟨hc, rfl⟩ | ⟨hc, rfl⟩ | ⟨hc, rfl⟩ | ⟨hc, rfl⟩ | ⟨hc, rfl⟩ |
          ⟨hc, rfl⟩ | ⟨hc, rfl⟩ | ⟨hc, rfl⟩ | ⟨hc, rfl⟩ | ⟨hc, rfl⟩ | ⟨hc, rfl⟩ | ⟨hc, rfl⟩ | ⟨hc, rfl⟩ | ⟨hc, rfl⟩ |
          ⟨hc, rfl⟩ <;> exact hc
    · exact h
    · exact h

/-- Out of reset, and while no waiting writer can be served, every event of the part's own but a grant is due under its
condition. -/
theorem State.due_of_dueCondition {s : State} {d : Due} (hr : s.resetAsserted = false) (hw : s.nextWaiter = none)
    (hg : d ≠ .grant) (h : s.dueCondition d = true) : d ∈ s.due := by
  simp only [State.due, hr, State.dueWork, hw]
  rcases d with _ | p | p | q | q | _ | _ | _ | _ | _ | p | _ | _ | _ <;> (try cases p) <;> (try cases q) <;>
    simp_all [State.dueCondition, mem_oneIf]

/-- Settling one event fires an event that is due, after a free choice or none. -/
theorem State.settleOne_cases (keep : State → Due → Bool) (s : State) :
    s.settleOne keep = s ∨
    (∃ d ∈ s.due, keep s d = true ∧ s.settleOne keep = s.fire d) ∨
    (∃ d ∈ s.bumpFree.due, keep s d = true ∧ s.settleOne keep = s.bumpFree.fire d) := by
  unfold State.settleOne
  split
  · exact .inl rfl
  · rename_i d hd
    have hm : d ∈ s.due.filter (keep s) := by simp [hd]
    exact .inr (.inl ⟨d, (List.mem_filter.1 hm).1, (List.mem_filter.1 hm).2, rfl⟩)
  · rename_i d ds _ hd
    have hm : (d :: ds).getD (Config.order s.own.freeCount % (d :: ds).length) d ∈ s.due.filter (keep s) := by
      rw [hd]
      exact getD_mem _ _ _ (by simp)
    exact .inr (.inr ⟨_, (List.mem_filter.1 hm).1, (List.mem_filter.1 hm).2, rfl⟩)

/-- What every due event and the count of free values keep, one settled event keeps. -/
theorem State.settleOne_induct {P : State → Prop} (hb : ∀ s, P s → P s.bumpFree)
    (hf : ∀ s d, d ∈ s.due → P s → P (s.fire d)) (keep : State → Due → Bool) {s : State} (h : P s) :
    P (s.settleOne keep) := by
  rcases s.settleOne_cases keep with he | ⟨d, hd, _, he⟩ | ⟨d, hd, _, he⟩
  · rwa [he]
  · rw [he]
    exact hf s d hd h
  · rw [he]
    exact hf _ d hd (hb s h)

/-- The same of settling to the end. -/
theorem State.settleWith_induct {P : State → Prop} (hb : ∀ s, P s → P s.bumpFree)
    (hf : ∀ s d, d ∈ s.due → P s → P (s.fire d)) (keep : State → Due → Bool) (fuel : Nat) {s : State} (h : P s) :
    P (State.settleWith keep fuel s) := by
  induction fuel generalizing s with
  | zero => exact h
  | succ n ih =>
    unfold State.settleWith
    split
    · exact h
    · exact ih (State.settleOne_induct hb hf keep h)

/-- What every due event and the model's own fields keep holds at the start of an event from outside. -/
theorem State.eventStart_induct {P : State → Prop} (ho : ∀ s o, P s → P (s.setOwn o))
    (hf : ∀ s d, d ∈ s.due → P s → P (s.fire d)) {s : State} (h : P s) : P s.eventStart :=
  ho _ _ (State.settleWith_induct (fun s h => ho s _ h) hf _ _ h)

/-- The same for an event that comes together with releases. -/
theorem State.eventTogether_induct {P : State → Prop} (ho : ∀ s o, P s → P (s.setOwn o))
    (hf : ∀ s d, d ∈ s.due → P s → P (s.fire d)) {s : State} (h : P s) : P s.eventTogether :=
  State.settleWith_induct (fun s h => ho s _ h) hf _ _ h

/-- The same for an event from outside in either order. -/
theorem State.eventStartBy_induct {P : State → Prop} (ho : ∀ s o, P s → P (s.setOwn o))
    (hf : ∀ s d, d ∈ s.due → P s → P (s.fire d)) {s : State} {together : Bool} (h : P s) :
    P (s.eventStartBy together) := by
  unfold State.eventStartBy
  split
  · exact ho _ _ (State.settleWith_induct (fun s h => ho s _ h) hf _ _ h)
  · exact State.eventStart_induct ho hf h

/-- With nothing due, settling does nothing. -/
theorem State.settleWith_of_due_nil (keep : State → Due → Bool) (fuel : Nat) {s : State} (h : s.due = []) :
    State.settleWith keep fuel s = s := by
  cases fuel <;> simp [State.settleWith, h]

/-- With nothing due, an event from outside begins in the state as it stands. -/
theorem State.eventStart_of_due_nil {s : State} (h : s.due = []) : s.eventStart = s.endEvent := by
  unfold State.eventStart State.settle
  rw [State.settleWith_of_due_nil _ _ h]

theorem State.eventBeforeGrant_of_due_nil {s : State} (h : s.due = []) : s.eventBeforeGrant = s.endEvent := by
  unfold State.eventBeforeGrant
  rw [State.settleWith_of_due_nil _ _ h]

theorem State.eventStartBy_of_due_nil {s : State} (h : s.due = []) (together : Bool) :
    s.eventStartBy together = s.endEvent := by
  unfold State.eventStartBy
  split
  · exact State.eventBeforeGrant_of_due_nil h
  · exact State.eventStart_of_due_nil h

theorem State.eventTogether_of_due_nil {s : State} (h : s.due = []) : s.eventTogether = s :=
  State.settleWith_of_due_nil _ _ h

/-- One event settled, while one that passes the test is due. -/
theorem State.settleWith_succ {keep : State → Due → Bool} {s : State} {d : Due} (hd : d ∈ s.due) (hk : keep s d = true)
    (n : Nat) : State.settleWith keep (n + 1) s = State.settleWith keep n (s.settleOne keep) := by
  have h : (s.due.filter (keep s)).isEmpty = false := by
    cases hf : s.due.filter (keep s) with
    | nil =>
      have := List.mem_filter.2 ⟨hd, hk⟩
      simp [hf] at this
    | cons => rfl
  simp [State.settleWith, h]

/-- Nothing that passes the test is due. -/
theorem State.settleWith_of_none {keep : State → Due → Bool} {s : State} (h : ∀ d ∈ s.due, keep s d = false) (n : Nat) :
    State.settleWith keep n s = s := by
  have h' : s.due.filter (keep s) = [] := by
    rw [List.filter_eq_nil_iff]
    intro d hd
    simp [h d hd]
  cases n <;> simp [State.settleWith, h']

/-- The blocks that no event within the part changes. -/
def State.SameOutside (s t : State) : Prop :=
  t.resetAsserted = s.resetAsserted ∧ t.array = s.array ∧ t.acu = s.acu ∧ t.cfg = s.cfg ∧ t.pending = s.pending

theorem State.sameOutside_fire {s t : State} (h : s.SameOutside t) (d : Due) : s.SameOutside (t.fire d) :=
  have k := State.fire_kept t d
  ⟨k.reset.trans h.1, k.array.trans h.2.1, k.acu.trans h.2.2.1, k.cfg.trans h.2.2.2.1, k.pending.trans h.2.2.2.2⟩

/-- No block outside the part's own events changes at the start of an event from outside. -/
theorem State.eventStart_kept (s : State) : s.SameOutside s.eventStart :=
  State.eventStart_induct (P := s.SameOutside) (fun _ _ h => h) (fun _ d _ h => State.sameOutside_fire h d)
    ⟨rfl, rfl, rfl, rfl, rfl⟩

theorem State.eventStartBy_kept (s : State) (together : Bool) : s.SameOutside (s.eventStartBy together) :=
  State.eventStartBy_induct (P := s.SameOutside) (fun _ _ h => h) (fun _ d _ h => State.sameOutside_fire h d)
    ⟨rfl, rfl, rfl, rfl, rfl⟩

theorem State.eventTogether_kept (s : State) : s.SameOutside s.eventTogether :=
  State.eventTogether_induct (P := s.SameOutside) (fun _ _ h => h) (fun _ d _ h => State.sameOutside_fire h d)
    ⟨rfl, rfl, rfl, rfl, rfl⟩

@[simp] theorem State.eventStart_resetAsserted (s : State) : s.eventStart.resetAsserted = s.resetAsserted :=
  s.eventStart_kept.1
@[simp] theorem State.eventStart_array (s : State) : s.eventStart.array = s.array := s.eventStart_kept.2.1
@[simp] theorem State.eventStart_acu (s : State) : s.eventStart.acu = s.acu := s.eventStart_kept.2.2.1
@[simp] theorem State.eventStart_cfg (s : State) : s.eventStart.cfg = s.cfg := s.eventStart_kept.2.2.2.1
@[simp] theorem State.eventStart_pending (s : State) : s.eventStart.pending = s.pending := s.eventStart_kept.2.2.2.2

@[simp] theorem State.eventStartBy_resetAsserted (s : State) (together : Bool) :
    (s.eventStartBy together).resetAsserted = s.resetAsserted := (s.eventStartBy_kept together).1
@[simp] theorem State.eventStartBy_array (s : State) (together : Bool) :
    (s.eventStartBy together).array = s.array := (s.eventStartBy_kept together).2.1
@[simp] theorem State.eventStartBy_acu (s : State) (together : Bool) :
    (s.eventStartBy together).acu = s.acu := (s.eventStartBy_kept together).2.2.1
@[simp] theorem State.eventStartBy_cfg (s : State) (together : Bool) :
    (s.eventStartBy together).cfg = s.cfg := (s.eventStartBy_kept together).2.2.2.1
@[simp] theorem State.eventStartBy_pending (s : State) (together : Bool) :
    (s.eventStartBy together).pending = s.pending := (s.eventStartBy_kept together).2.2.2.2

/-- In reset nothing is due. -/
theorem State.due_of_reset {s : State} (h : s.resetAsserted = true) : s.due = [] := by simp [State.due, h]

/-! ### The wrappers of the rows -/

theorem State.outside_of_reset {s : State} (h : s.resetAsserted = true) (f : State → State) : s.outside f = s := by
  simp [State.outside, h]

theorem State.outside_of_release {s : State} (h : s.resetAsserted = false) (f : State → State) :
    s.outside f = f s.eventStart := by
  simp [State.outside, h]

theorem State.outsideBy_of_reset {s : State} (h : s.resetAsserted = true) (together : Bool) (f : State → State) :
    s.outsideBy together f = s := by
  simp [State.outsideBy, h]

theorem State.outsideBy_of_release {s : State} (h : s.resetAsserted = false) (together : Bool) (f : State → State) :
    s.outsideBy together f = f (s.eventStartBy together) := by
  simp [State.outsideBy, h]

/-- A whole frame out of reset arrives. -/
theorem State.frameTaken_of_whole {s : State} (h : s.resetAsserted = false) (p : SpId) (f : Frame) (start : State) :
    s.frameTaken p ⟨f, true⟩ start = start.arrive p f := by
  simp [State.frameTaken, h]

/-- A frame that began before the release changes nothing. -/
theorem State.frameTaken_of_part (s : State) (p : SpId) (f : Frame) (start : State) :
    s.frameTaken p ⟨f, false⟩ start = s := by
  simp [State.frameTaken]

theorem State.frameTaken_of_reset {s : State} (h : s.resetAsserted = true) (p : SpId) (f : Arrival)
    (start : State) : s.frameTaken p f start = s := by
  simp [State.frameTaken, h]

theorem State.internal_of_due {s : State} {d : Due} (h : d ∈ s.due) : s.internal d = s.fire d := by
  simp [State.internal, h]

/-- A row whose event's condition does not hold changes nothing (log 20). -/
theorem State.internal_of_not_condition {s : State} {d : Due} (h : s.dueCondition d = false) : s.internal d = s := by
  have hd : d ∉ s.due := fun hm => by simp [State.dueCondition_of_due hm] at h
  simp [State.internal, hd]

theorem State.internal_of_not_due {s : State} {d : Due} (h : d ∉ s.due) : s.internal d = s := by
  simp [State.internal, h]

theorem State.busWrite_taken {s : State} {b : Bus} (h : busTaken b = true) (f : State → State) :
    s.busWrite b f = s.outsideBy b.together f := by
  simp [State.busWrite, h]

/-- In reset a write access changes nothing (R198). -/
theorem State.busWrite_of_reset {s : State} (h : s.resetAsserted = true) (b : Bus) (f : State → State) :
    s.busWrite b f = s := by
  unfold State.busWrite
  split
  · exact State.outsideBy_of_reset h _ _
  · rfl

theorem State.busWrite_untaken {s : State} {b : Bus} (h : busTaken b = false) (f : State → State) :
    s.busWrite b f = s := by
  simp [State.busWrite, h]

/-- Every command answers a next state. -/
theorem exec_next (c : Instr) (s : State) : ∃ t, exec c s = .next t := by
  cases c <;> exact ⟨_, rfl⟩

/-- Every step answers a next state. -/
theorem step_next (s : State) : ∃ t, step s = .next t := by
  unfold step
  split
  · exact exec_next _ _
  · exact ⟨_, rfl⟩

end Sys2Proof.Machine
end

