-- ==== Sys2Proof/Laws/Ops.lean ====
section
/-! SUPPORT. One lemma per shared operation: everything it can do, for proofs to cite instead of unfolding it. -/

namespace Sys2Proof.Machine

/-! ### The error log -/

/-- A log with room keeps the record under the counter's number (R175, R176). -/
theorem State.logRecord_kept (s : State) (r : ErrorRecord) (h : s.elog.records.length < 8) :
    s.logRecord r =
      s.setElog { s.elog with records := s.elog.records ++ [{ r with seq := s.elog.seq }], seq := s.elog.seq + 1 } := by
  simp [State.logRecord, h]

/-- A full log drops the record and sets LOG_OVERFLOW (R177). -/
theorem State.logRecord_dropped (s : State) (r : ErrorRecord) (h : 8 ≤ s.elog.records.length) :
    s.logRecord r =
      s.setElog
        { s.elog with
          overflow := true
          seq := if (s.elog.records.head?.map (·.seq)) == some s.elog.seq then s.elog.seq else s.elog.seq + 1 } := by
  have h' : ¬ s.elog.records.length < 8 := by omega
  simp only [State.logRecord, h', if_false]

/-- Records and counts change the error log alone. -/
theorem State.logRecord_elog (s : State) (r : ErrorRecord) : ∃ l, s.logRecord r = s.setElog l := by
  unfold State.logRecord
  split <;> exact ⟨_, rfl⟩

theorem State.reportRead_elog (s : State) (o : DecodeOutcome) (src : Source) (a : Addr) (k : AccessType)
    (g : Option Tag) : ∃ l, s.reportRead o src a k g = s.setElog l := by
  cases o with
  | clean => exact ⟨s.elog, rfl⟩
  | corrected pos =>
    unfold State.reportRead State.recordOutcome State.countOutcome
    dsimp only
    split
    · obtain ⟨l, hl⟩ := State.logRecord_elog (s.setElog { s.elog with cntCorrected := saturatingInc s.elog.cntCorrected })
        { ErrorRecord.base .corrected src a with access := some k, tag := g, kind := .corrected, pos := some pos }
      exact ⟨l, hl⟩
    · exact ⟨_, rfl⟩
  | uncorrectable =>
    obtain ⟨l, hl⟩ := State.logRecord_elog
      (s.setElog { s.elog with cntUncorrectable := saturatingInc s.elog.cntUncorrectable })
      { ErrorRecord.base .corrected src a with
        access := some k, tag := g, kind := .uncorrectable, pos := some 127#7 }
    exact ⟨l, hl⟩

/-- The log never holds more than 8 records. -/
theorem State.logRecord_length (s : State) (r : ErrorRecord) (h : s.elog.records.length ≤ 8) :
    (s.logRecord r).elog.records.length ≤ 8 := by
  by_cases h8 : s.elog.records.length < 8
  · simp [State.logRecord_kept s r h8]
    omega
  · simp [State.logRecord_dropped s r (by omega), h]

/-! ### The processor port -/

/-- A completion moves the executing request's record to the queue (R122). -/
theorem State.ppComplete_some {s : State} {x : PpExec} (h : s.ppt.exec = some x) (st : CplStatus) (d : Word) :
    s.ppComplete st d =
      s.setPpt
        { s.ppt with
          exec := none, cq := s.ppt.cq ++ [{ tag := x.req.tag, op := x.req.op, status := st, data := d }] } := by
  simp [State.ppComplete, h]

theorem State.ppComplete_none {s : State} (h : s.ppt.exec = none) (st : CplStatus) (d : Word) :
    s.ppComplete st d = s := by
  simp [State.ppComplete, h]

theorem State.setPpPhase_some {s : State} {x : PpExec} (h : s.ppt.exec = some x) (ph : PpPhase) :
    s.setPpPhase ph = s.setPpt { s.ppt with exec := some { x with phase := ph } } := by
  simp [State.setPpPhase, h]

/-- A completion keeps the number of completion records and executing requests together (R122). -/
theorem State.ppComplete_reserved (s : State) (st : CplStatus) (d : Word) :
    (s.ppComplete st d).ppt.cq.length + (s.ppComplete st d).ppt.exec.isSome.toNat =
      s.ppt.cq.length + s.ppt.exec.isSome.toNat := by
  cases h : s.ppt.exec with
  | none => simp [State.ppComplete_none h, h]
  | some x => simp [State.ppComplete_some h]

/-! ### The stream ports -/

/-- No burst, no END. -/
theorem State.endBurst_none {s : State} {p : SpId} (h : (s.sp p).burst = none) (st : EndStatus) :
    s.endBurst p st = s := by
  simp [State.endBurst, h]

/-- The END of a burst of an ENABLED or SUSPENDED port gives its credit back (R137). -/
theorem State.endBurst_credited {s : State} {p : SpId} {b : Burst} (h : (s.sp p).burst = some b)
    (hc : (s.sp p).state.credited = true) (st : EndStatus) :
    s.endBurst p st =
      s.setSp p
        { s.sp p with
          outbound := (s.sp p).outbound ++ [.endMsg b.hdr.tag st b.done] ++ [.credit 1]
          srq := (s.sp p).srq.tail
          burst := none
          credits := (s.sp p).credits + 1
          state := (s.sp p).state
          expiryDue := false } := by
  have hs : (s.sp p).state ≠ .disabling := by
    intro hd
    simp [hd, PortState.credited] at hc
  simp [State.endBurst, h, hc, hs]

/-- Suspension stops an ENABLED or SUSPENDED port and no other (R135). -/
theorem State.suspend_credited {s : State} {p : SpId} (hc : (s.sp p).state.credited = true) (c : SuspendCause) :
    s.suspend p c = s.setSp p { s.sp p with state := .suspended, cause := c } := by
  simp [State.suspend, hc]

theorem State.suspend_other {s : State} {p : SpId} (hc : (s.sp p).state.credited = false) (c : SuspendCause) :
    s.suspend p c = s := by
  simp [State.suspend, hc]

/-! ### Merge writes -/

/-- A merge write for a locked word is held (R21). -/
theorem State.mbOffer_held {s : State} {m : MergeWrite} (h : s.locked m.addr = true) :
    s.mbOffer m = (.outstanding, s.mbHold m) := by
  simp [State.mbOffer, h]

/-- A merge write of no lane is accepted and changes nothing (R20). -/
theorem State.mbOffer_empty {s : State} {m : MergeWrite} (h : s.locked m.addr = false) (hm : m.mask = 0#4) :
    s.mbOffer m = (.accepted, s) := by
  simp [State.mbOffer, h, hm]

/-- A merge write that finds an entry is refused at a FAULTED one and else coalesces (R22 to R24). -/
theorem State.mbOffer_entry {s : State} {m : MergeWrite} {e : Fin 8} (h : s.locked m.addr = false)
    (hm : m.mask ≠ 0#4) (he : s.mb.entryFor m.addr = some e) :
    s.mbOffer m =
      if (s.mb.entry e).state = .faulted then (.refused, s) else (.accepted, s.mbCoalesce e m) := by
  simp [State.mbOffer, h, hm, he]

/-- A merge write for a new word takes the lowest FREE entry (R25). -/
theorem State.mbOffer_allocate {s : State} {m : MergeWrite} {e : Fin 8} (h : s.locked m.addr = false)
    (hm : m.mask ≠ 0#4) (he : s.mb.entryFor m.addr = none) (hf : s.mb.firstFree = some e) :
    s.mbOffer m = (.accepted, s.mbAllocate e m) := by
  simp [State.mbOffer, h, hm, he, hf]

/-- A merge write for a new word waits while no entry is FREE (R26). -/
theorem State.mbOffer_wait {s : State} {m : MergeWrite} (h : s.locked m.addr = false) (hm : m.mask ≠ 0#4)
    (he : s.mb.entryFor m.addr = none) (hf : s.mb.firstFree = none) :
    s.mbOffer m = (.outstanding, s.mbWait m) := by
  simp [State.mbOffer, h, hm, he, hf]

/-! ### The array interface -/

/-- The access in flight for a requester is the interface's own, in the state named. -/
theorem State.inFlight_some {s : State} {st : AifState} {r : Requester} {a : Access} (h : s.inFlight st r = some a) :
    s.aif.state = st ∧ s.aif.access = some a ∧ a.requester = r := by
  unfold State.inFlight at h
  split at h
  · rename_i hs
    rw [Option.filter_eq_some_iff] at h
    exact ⟨hs, h.1, by simpa using h.2⟩
  · simp at h

/-! ### The arbiter -/

/-- In HALTED only a resolve write can be granted (R83). -/
theorem State.grantable_halted {s : State} (h : s.ctl.state = .halted) {r : Requester} (hg : s.grantable r = true) :
    r = .dr ∧ s.mb.drain.phase = .resolveWait := by
  simp [State.grantable, h] at hg
  exact hg.2

/-- The winner of a grant is a requester that can be granted (R77). -/
theorem State.winner_grantable {s : State} {r : Requester} {b : Bool} (h : s.winner = some (r, b)) :
    s.grantable r = true := by
  unfold State.winner at h
  split at h
  · rename_i hc
    cases h
    simp at hc
    exact hc.2
  · split at h
    · rename_i hc
      cases h
      simp at hc
      exact hc.1
    · split at h
      · rename_i q hq
        cases h
        exact List.find?_some hq
      · split at h
        · rename_i hc
          cases h
          simp at hc
          exact hc.1
        · cases h

end Sys2Proof.Machine
end

