-- ==== Sys2Proof/Laws/Vocabulary.lean ====
section
/-! SUPPORT. The operations in the words of the statements: which entry a word or an allocation finds, a burst's end and a
port's suspension as `StreamPort.ended` and `StreamPort.stopped`, a frame that waits on the link, a bus access that is
taken, and what a verdict on an argument names. -/

namespace Sys2Proof.Machine

/-! ### Bus accesses -/

/-- A taken write acts on the state at the event's start. -/
theorem State.busWrite_of_taken {s : State} {b : Bus} (h : Taken s b) (f : State → State) :
    s.busWrite b f = f (s.eventStartBy b.together) := by
  obtain ⟨h1, h2, h3, h4, h5⟩ := h
  simp [State.busWrite, State.outsideBy, busTaken, busAccess, h1, h2, h3, h4, h5]

/-- A taken read acts on the state at the event's start. -/
theorem State.busRead_of_taken {s : State} {b : Bus} (h : Taken s b) (f : State → State) :
    s.busRead b f = f (s.eventStartBy b.together) := by
  obtain ⟨h1, h2, h3, h4, h5⟩ := h
  simp [State.busRead, busTaken, busAccess, h1, h2, h3, h4, h5]

theorem portOfArg_of_names {arg : BitVec 8} {p : SpId} (h : NamesPort arg p) : portOfArg arg = some p := by
  rcases h with ⟨rfl, rfl⟩ | ⟨rfl, rfl⟩ <;> rfl

theorem portOfArg_of_above {arg : BitVec 8} (h : 2#8 ≤ arg) : portOfArg arg = none := by
  have h0 : arg ≠ 0#8 := by rintro rfl; simp at h
  have h1 : arg ≠ 1#8 := by rintro rfl; simp at h
  simp [portOfArg, h0, h1]

/-! ### Entries -/

theorem mem_entryIds : ∀ e : Fin 8, e ∈ entryIds := by decide

/-- No entry passes a test. -/
theorem MergeBuffer.anyEntry_eq_false {mb : MergeBuffer} {test : Entry → Bool} :
    mb.anyEntry test = false ↔ ∀ e, test (mb.entry e) = false := by
  simp only [MergeBuffer.anyEntry, List.any_eq_false, Bool.not_eq_true]
  exact ⟨fun h e => h e (mem_entryIds e), fun h e _ => h e⟩

/-- The buffer's quiesce condition (R48). -/
theorem MergeBuffer.quiet_iff {mb : MergeBuffer} :
    mb.quiet = true ↔ ∀ e, (mb.entry e).state = .free ∨ (mb.entry e).state = .faulted := by
  simp only [MergeBuffer.quiet, Bool.not_eq_true', MergeBuffer.anyEntry_eq_false]
  refine forall_congr' fun e => ?_
  cases h : (mb.entry e).state <;> simp [Entry.live, h]

/-- The six quiesce conditions (R105). -/
theorem State.quiesced_iff {s : State} : s.quiesced = true ↔ QuiesceHolds s := by
  simp [State.quiesced, State.quiesceConditions, QuiesceHolds, MergeBuffer.quiet_iff]

/-- The only non-FREE entry for a word is the one found. -/
theorem MergeBuffer.entryFor_of_unique {mb : MergeBuffer} {w : Addr} {e : Fin 8} (h1 : (mb.entry e).state ≠ .free)
    (h2 : (mb.entry e).addr = w)
    (h3 : ∀ f, (mb.entry f).state ≠ .free → (mb.entry f).addr = w → f = e) : mb.entryFor w = some e := by
  cases hf : mb.entryFor w with
  | none =>
    rw [MergeBuffer.entryFor, List.find?_eq_none] at hf
    exact absurd (by simp [Entry.holds, Entry.active, h1, h2]) (hf e (mem_entryIds e))
  | some f =>
    have h := List.find?_some hf
    simp only [Entry.holds, Entry.active, Bool.and_eq_true, bne_iff_ne, ne_eq, beq_iff_eq] at h
    rw [h3 f h.1 h.2]

/-- A word that no non-FREE entry holds finds none. -/
theorem MergeBuffer.entryFor_of_none {mb : MergeBuffer} {w : Addr}
    (h : ∀ e, (mb.entry e).state = .free ∨ (mb.entry e).addr ≠ w) : mb.entryFor w = none := by
  rw [MergeBuffer.entryFor, List.find?_eq_none]
  intro e _
  rcases h e with h | h <;> simp [Entry.holds, Entry.active, h]

/-- The FREE entry below which none is FREE is the one an allocation takes. -/
theorem MergeBuffer.firstFree_of_lowest {mb : MergeBuffer} {e : Fin 8} (he : (mb.entry e).state = .free)
    (hl : ∀ f, f < e → (mb.entry f).state ≠ .free) : mb.firstFree = some e := by
  cases hf : mb.firstFree with
  | none =>
    rw [MergeBuffer.firstFree, List.find?_eq_none] at hf
    exact absurd (by simp [he]) (hf e (mem_entryIds e))
  | some f =>
    have hs := List.find?_some hf
    have h1 : ¬ f < e := fun h => hl f h (by simpa using hs)
    have h2 : ¬ e < f := by
      intro h
      rw [MergeBuffer.firstFree, List.find?_eq_some_iff_append] at hf
      obtain ⟨_, as, bs, hab, hno⟩ := hf
      have hm : e ∈ as := by
        have hsort : entryIds.Pairwise (· < ·) := by decide
        have hme : e ∈ as ++ f :: bs := hab ▸ mem_entryIds e
        rw [hab, List.pairwise_append, List.pairwise_cons] at hsort
        rcases List.mem_append.1 hme with hm | hm
        · exact hm
        · rcases List.mem_cons.1 hm with rfl | hm
          · exact absurd h (lt_irrefl _)
          · exact absurd (hsort.2.1.1 e hm) (not_lt.2 h.le)
      exact absurd (hno e hm) (by simp [he])
    exact congrArg some (le_antisymm (not_lt.1 h2) (not_lt.1 h1))

theorem MergeBuffer.firstFree_of_none {mb : MergeBuffer} (h : ∀ e, (mb.entry e).state ≠ .free) :
    mb.firstFree = none := by
  rw [MergeBuffer.firstFree, List.find?_eq_none]
  intro e _
  simp [h e]

/-- All eight entries pass a test exactly when the count is 8. -/
theorem MergeBuffer.count_eq_eight {mb : MergeBuffer} {test : Entry → Bool} :
    mb.count test = 8 ↔ ∀ e, test (mb.entry e) = true := by
  have h8 : entryIds.length = 8 := rfl
  constructor
  · intro h e
    exact List.length_filter_eq_length_iff.1 (h.trans h8.symm) e (mem_entryIds e)
  · intro h
    exact (List.length_filter_eq_length_iff.2 fun e _ => h e).trans h8

/-! ### Stream ports -/

/-- The end of the executing burst. -/
theorem State.endBurst_eq_ended {s : State} {p : SpId} {b : Burst} (h : (s.sp p).burst = some b) (st : EndStatus) :
    s.endBurst p st = s.setSp p ((s.sp p).ended b.hdr.tag st b.done) := by
  simp only [State.endBurst, h, StreamPort.ended]
  cases (s.sp p).state <;> simp [PortState.credited, creditMsgs]

/-- A suspension. -/
theorem State.suspend_eq_stopped (s : State) (p : SpId) (c : SuspendCause) :
    s.suspend p c = s.setSp p ((s.sp p).stopped c) := by
  have hself : s.setSp p (s.sp p) = s := by cases p <;> rfl
  unfold State.suspend StreamPort.stopped
  cases hs : (s.sp p).state <;> simp [hs, PortState.credited, hself]

/-- A change of one stream port leaves every other block alone. -/
theorem State.setSp_sameBut (s : State) (p : SpId) (x : StreamPort) : s.sameBut (s.setSp p x) [spBlock p] := by
  intro b hb
  cases p <;> cases b <;> first | rfl | (exfalso; exact hb (by decide))

/-- A frame that is not taken joins those on the link. -/
theorem State.arrive_joins {u : State} {p : SpId} {f : Frame}
    (h : (u.sp p).inbound ≠ [] ∨ u.canTake p f = false) : JoinsLink u (u.arrive p f) p f := by
  have ha : u.arrive p f = (u.setSp p { u.sp p with inbound := (u.sp p).inbound ++ [f] }).blockOperand p := by
    unfold State.arrive
    rw [if_neg]
    rcases h with h | h <;> simp [h]
  rw [ha]
  unfold State.blockOperand State.setBurst
  rw [State.setSp_sp_same]
  have hself : JoinsLink u (u.setSp p { u.sp p with inbound := (u.sp p).inbound ++ [f] }) p f :=
    ⟨State.setSp_sameBut u p _, by rw [State.setSp_sp_same], .inl (by rw [State.setSp_sp_same])⟩
  split
  · rename_i g rest b hb hbu
    split
    · rename_i hc
      have hss : ∀ x y, (u.setSp p x).setSp p y = u.setSp p y := by intros; cases p <;> rfl
      rw [hss]
      refine ⟨State.setSp_sameBut u p _, by rw [State.setSp_sp_same], .inr ⟨b, hbu, hc.1, ?_⟩⟩
      rw [State.setSp_sp_same]
    · exact hself
  · exact hself

end Sys2Proof.Machine
end

