-- ==== Sys2Proof/Laws/Locks.lean ====
section
/-! SUPPORT. The lock table's operations: what handing over a result can change, the steps of the next entry for a word, and
what a creation and a removal leave. -/

namespace Sys2Proof.Machine

/-! ### Frames -/

theorem State.sameBut_refl (s : State) (bs : List Block) : s.sameBut s bs := fun b _ => by cases b <;> rfl

theorem State.sameBut_trans {s t u : State} {bs : List Block} (h1 : s.sameBut t bs) (h2 : t.sameBut u bs) :
    s.sameBut u bs := fun b hb => by
  have a1 := h1 b hb
  have a2 := h2 b hb
  cases b <;> exact a2.trans a1

theorem State.sameBut_mono {s t : State} {bs cs : List Block} (h : s.sameBut t bs) (hs : ∀ b ∈ bs, b ∈ cs) :
    s.sameBut t cs := fun b hb => h b fun hm => hb (hs b hm)

theorem State.setPpt_sameBut (s : State) (x : Ppt) : s.sameBut (s.setPpt x) [.ppt] := fun b hb => by
  cases b <;> first | rfl | simp at hb

theorem State.setWlt_sameBut (s : State) (x : List LockEntry) : s.sameBut (s.setWlt x) [.wlt] := fun b hb => by
  cases b <;> first | rfl | simp at hb

theorem State.setMb_sameBut (s : State) (x : MergeBuffer) : s.sameBut (s.setMb x) [.mb] := fun b hb => by
  cases b <;> first | rfl | simp at hb

/-! ### Handing over a result -/

theorem State.endBurst_shape (s : State) (p : SpId) (st : EndStatus) : ∃ x, s.endBurst p st = s.setSp p x := by
  unfold State.endBurst
  split
  · exact ⟨s.sp p, by simp⟩
  · exact ⟨_, rfl⟩

theorem State.suspend_shape (s : State) (p : SpId) (c : SuspendCause) : ∃ x, s.suspend p c = s.setSp p x := by
  unfold State.suspend
  dsimp only
  split
  · exact ⟨_, rfl⟩
  · exact ⟨s.sp p, by simp⟩

/-- The answer to a stream atomic changes its port alone. -/
theorem State.answerAtomic_shape (s : State) (p : SpId) (tag : Tag) (r : LockResult) :
    ∃ x, s.answerAtomic p tag r = s.setSp p x := by
  unfold State.answerAtomic
  split
  · exact ⟨s.sp p, by simp⟩
  · rename_i b _
    split
    · exact s.endBurst_shape p _
    · have h : ∀ t : State, (∃ x, t = s.setSp p x) → ∃ x, t.endBurst p r.endStatus = s.setSp p x := by
        rintro t ⟨x, rfl⟩
        obtain ⟨y, hy⟩ := State.endBurst_shape (s.setSp p x) p r.endStatus
        exact ⟨y, by rw [hy]; simp⟩
      refine h _ ?_
      split
      · obtain ⟨y, hy⟩ := State.suspend_shape
          ((s.send p [.readBeat tag r.old r.outcome.beatStatus]).setBurst p (some { b with done := 1 })) p .uncorrectable
        exact ⟨y, by rw [hy]; simp [State.setBurst, State.send]⟩
      · exact ⟨_, by simp only [State.setBurst, State.send, State.setSp_setSp]; rfl⟩

/-- A completion of the executing request changes the processor port alone. -/
theorem State.ppComplete_shape (s : State) (st : CplStatus) (d : Word) : ∃ x, s.ppComplete st d = s.setPpt x := by
  unfold State.ppComplete
  split
  · exact ⟨s.ppt, rfl⟩
  · exact ⟨_, rfl⟩

/-- Handing over a result changes the port of the entry alone. -/
theorem State.deliver_shape (s : State) (e : LockEntry) (r : LockResult) :
    s.deliver e r = s ∨ (e.port = .pp ∧ ∃ x, s.deliver e r = s.setPpt x) ∨
    ∃ p x, e.port = SpId.port p ∧ s.deliver e r = s.setSp p x := by
  unfold State.deliver
  split
  · exact .inl rfl
  · split
    · rename_i h
      refine .inr (.inl ⟨?_, s.ppComplete_shape _ _⟩)
      cases hp : e.port <;> simp_all [streamOf]
    · rename_i p h
      obtain ⟨x, hx⟩ := s.answerAtomic_shape p e.tag r
      refine .inr (.inr ⟨p, x, ?_, hx⟩)
      cases hp : e.port <;> simp_all [streamOf] <;> subst h <;> rfl

/-- Handing over a result changes the processor port and the stream ports alone. -/
theorem State.deliver_sameBut (s : State) (e : LockEntry) (r : LockResult) :
    s.sameBut (s.deliver e r) [.ppt, .sp0, .sp1] := by
  rcases s.deliver_shape e r with h | ⟨_, x, h⟩ | ⟨p, x, _, h⟩
  · rw [h]
    exact s.sameBut_refl _
  · rw [h]
    exact State.sameBut_mono (s.setPpt_sameBut x) (by simp)
  · rw [h]
    exact State.sameBut_mono (s.setSp_sameBut p x) (by cases p <;> simp [spBlock])

@[simp] theorem State.deliver_wlt (s : State) (e : LockEntry) (r : LockResult) : (s.deliver e r).wlt = s.wlt :=
  s.deliver_sameBut e r .wlt (by simp)

@[simp] theorem State.deliver_mb (s : State) (e : LockEntry) (r : LockResult) : (s.deliver e r).mb = s.mb :=
  s.deliver_sameBut e r .mb (by simp)

/-- The buffer's answer depends on the buffer alone. -/
theorem State.mbAsk_of_mb {s t : State} (h : t.mb = s.mb) (w : Addr) : t.mbAsk w = s.mbAsk w := by
  simp only [State.mbAsk, h]

/-- The release of a held processor atomic changes the processor port alone. -/
theorem State.releaseHeldAtomic_shape (s : State) (w : Addr) : ∃ x, s.releaseHeldAtomic w = s.setPpt x := by
  unfold State.releaseHeldAtomic State.setPpPhase
  cases s.ppt.exec with
  | none => exact ⟨s.ppt, rfl⟩
  | some x =>
    dsimp only
    split
    · exact ⟨_, rfl⟩
    · exact ⟨s.ppt, rfl⟩

/-! ### The next entry for a word (R58, R63) -/

theorem State.lockNext_none {s : State} {w : Addr} (h : s.firstLock w = none) (n : Nat) :
    State.lockNext (n + 1) w s = s.releaseHeldAtomic w := by
  simp [State.lockNext, h]

theorem State.lockNext_waiting {s : State} {w : Addr} {e : LockEntry} (h : s.firstLock w = some e)
    (he : e.state ≠ .waitTurn) (n : Nat) : State.lockNext (n + 1) w s = s := by
  simp [State.lockNext, h, he]

theorem State.lockNext_clear {s : State} {w : Addr} {e : LockEntry} (h : s.firstLock w = some e)
    (he : e.state = .waitTurn) (hm : s.mbAsk w = .none) (n : Nat) :
    State.lockNext (n + 1) w s = s.setLockState e.port .waitGrant := by
  simp [State.lockNext, h, he, hm]

theorem State.lockNext_forced {s : State} {w : Addr} {e : LockEntry} {i : Fin 8} (h : s.firstLock w = some e)
    (he : e.state = .waitTurn) (hm : s.mbAsk w = .forced i) (n : Nat) :
    State.lockNext (n + 1) w s =
      (s.setMb (s.mb.setEntry i { s.mb.entry i with forced := true })).setLockState e.port .waitDrain := by
  simp [State.lockNext, h, he, hm]

theorem State.lockNext_faulted {s : State} {w : Addr} {e : LockEntry} (h : s.firstLock w = some e)
    (he : e.state = .waitTurn) (hm : s.mbAsk w = .faulted) (n : Nat) :
    State.lockNext (n + 1) w s = State.lockNext n w ((s.eraseLock e.port).deliver e .faulted) := by
  simp [State.lockNext, h, he, hm]

/-- The entry first for a word is in the table and names the word. -/
theorem State.firstLock_some {s : State} {w : Addr} {e : LockEntry} (h : s.firstLock w = some e) :
    e ∈ s.wlt ∧ e.addr = w :=
  ⟨List.mem_of_find?_eq_some h, by simpa using List.find?_some h⟩

/-- An entry's removal makes the table shorter. -/
theorem State.eraseLock_length {s : State} {e : LockEntry} (h : e ∈ s.wlt) :
    (s.eraseLock e.port).wlt.length < s.wlt.length := by
  show (s.wlt.filter (·.port != e.port)).length < s.wlt.length
  exact List.length_filter_lt_length_iff_exists.2 ⟨e, h, by simp⟩

/-- Fuel beyond the table's length makes no difference. -/
theorem State.lockNext_fuel (n m : Nat) (w : Addr) (s : State) (hn : s.wlt.length < n) (hm : s.wlt.length < m) :
    State.lockNext n w s = State.lockNext m w s := by
  induction n generalizing m s with
  | zero => omega
  | succ n ih =>
    cases m with
    | zero => omega
    | succ m =>
      cases hf : s.firstLock w with
      | none => rw [State.lockNext_none hf, State.lockNext_none hf]
      | some e =>
        by_cases he : e.state = .waitTurn
        · cases hk : s.mbAsk w with
          | none => rw [State.lockNext_clear hf he hk, State.lockNext_clear hf he hk]
          | forced i => rw [State.lockNext_forced hf he hk, State.lockNext_forced hf he hk]
          | faulted =>
            rw [State.lockNext_faulted hf he hk, State.lockNext_faulted hf he hk]
            have hl := State.eraseLock_length (State.firstLock_some hf).1
            have hd : ((s.eraseLock e.port).deliver e .faulted).wlt = (s.eraseLock e.port).wlt := State.deliver_wlt _ _ _
            exact ih m _ (by rw [hd]; omega) (by rw [hd]; omega)
        · rw [State.lockNext_waiting hf he, State.lockNext_waiting hf he]

/-- The next entry's steps change the table, the buffer, the processor port and the stream ports alone. -/
theorem State.lockNext_sameBut (n : Nat) (w : Addr) (s : State) :
    s.sameBut (State.lockNext n w s) [.wlt, .mb, .ppt, .sp0, .sp1] := by
  induction n generalizing s with
  | zero => exact s.sameBut_refl _
  | succ n ih =>
    cases hf : s.firstLock w with
    | none =>
      obtain ⟨x, hx⟩ := s.releaseHeldAtomic_shape w
      rw [State.lockNext_none hf, hx]
      exact State.sameBut_mono (s.setPpt_sameBut x) (by simp)
    | some e =>
      by_cases he : e.state = .waitTurn
      · cases hk : s.mbAsk w with
        | none =>
          rw [State.lockNext_clear hf he hk]
          exact State.sameBut_mono (s.setWlt_sameBut _) (by simp)
        | forced i =>
          rw [State.lockNext_forced hf he hk]
          exact State.sameBut_trans (State.sameBut_mono (s.setMb_sameBut _) (by simp))
            (State.sameBut_mono (State.setWlt_sameBut _ _) (by simp))
        | faulted =>
          rw [State.lockNext_faulted hf he hk]
          exact State.sameBut_trans (State.sameBut_mono (s.setWlt_sameBut _) (by simp))
            (State.sameBut_trans (State.sameBut_mono (State.deliver_sameBut _ e .faulted) (by simp)) (ih _))
      · rw [State.lockNext_waiting hf he]
        exact s.sameBut_refl _

/-! ### The atomic engine's request (R60) -/

/-- The engine's request follows the table. -/
theorem State.aeUpdate_follows (s : State) : AeFollows s s.aeUpdate ∧ s.sameBut s.aeUpdate [.arb] := by
  unfold State.aeUpdate
  split
  · rename_i h
    have hx : ∃ e ∈ s.wlt, e.state = .waitGrant := by simpa using h
    have hn : ¬ ∀ e ∈ s.wlt, e.state ≠ .waitGrant := by
      obtain ⟨e, he, hs⟩ := hx
      exact fun hall => hall e he hs
    split
    · rename_i hc
      simp only [Bool.and_eq_true, Option.isNone_iff_eq_none, Bool.not_eq_true', Option.any_eq_false] at hc
      refine ⟨⟨rfl, fun _ => ⟨fun _ _ => rfl, ?_⟩, fun hall => absurd hall hn⟩, ?_⟩
      · rintro (hne | ⟨a, ha, hr⟩)
        · exact absurd hc.1 hne
        · have := hc.2 a ha
          simp [hr] at this
      · intro b hb
        cases b <;> first | rfl | simp at hb
    · rename_i hc
      refine ⟨⟨rfl, fun _ => ⟨fun hz ha => ?_, fun _ => rfl⟩, fun hall => absurd hall hn⟩, fun b _ => ?_⟩
      · exfalso
        apply hc
        simp only [Bool.and_eq_true, Option.isNone_iff_eq_none, Bool.not_eq_true', Option.any_eq_false]
        exact ⟨hz, fun a h => by simp [ha a h]⟩
      · cases b <;> rfl
  · rename_i h
    have hx : ∀ e ∈ s.wlt, e.state ≠ .waitGrant := by simpa using h
    have hn : ¬ ∃ e ∈ s.wlt, e.state = .waitGrant := by
      rintro ⟨e, he, hs⟩
      exact hx e he hs
    split
    · refine ⟨⟨rfl, fun hc => absurd hc hn, fun _ => rfl⟩, ?_⟩
      intro b hb
      cases b <;> first | rfl | simp at hb
    · rename_i hz
      have hz : s.arb.slots.ae = none := by simpa using hz
      refine ⟨⟨rfl, fun hc => absurd hc hn, fun _ => hz⟩, fun b _ => ?_⟩
      cases b <;> rfl

/-- The same after steps that left the arbiter and the array interface alone. -/
theorem State.aeUpdate_follows_of {s t : State} (h1 : t.arb = s.arb) (h2 : t.aif = s.aif) : AeFollows s t.aeUpdate := by
  have h := t.aeUpdate_follows.1
  unfold AeFollows at h ⊢
  rwa [h1, h2] at h

/-! ### Removals (R63) -/

/-- The state after an entry has left and its result, if any, has been handed over, before the next one acts. -/
def State.afterRemoval (s : State) (e : LockEntry) (r : Option LockResult) : State :=
  match r with
  | none => s.eraseLock e.port
  | some x => (s.eraseLock e.port).deliver e x

theorem State.afterRemoval_sameBut (s : State) (e : LockEntry) (r : Option LockResult) :
    (s.eraseLock e.port).sameBut (s.afterRemoval e r) [.ppt, .sp0, .sp1] := by
  cases r with
  | none => exact State.sameBut_refl _ _
  | some x => exact State.deliver_sameBut _ _ _

@[simp] theorem State.afterRemoval_wlt (s : State) (e : LockEntry) (r : Option LockResult) :
    (s.afterRemoval e r).wlt = s.wlt.filter (·.port != e.port) := s.afterRemoval_sameBut e r .wlt (by simp)

@[simp] theorem State.afterRemoval_mb (s : State) (e : LockEntry) (r : Option LockResult) :
    (s.afterRemoval e r).mb = s.mb := s.afterRemoval_sameBut e r .mb (by simp)

@[simp] theorem State.afterRemoval_arb (s : State) (e : LockEntry) (r : Option LockResult) :
    (s.afterRemoval e r).arb = s.arb := s.afterRemoval_sameBut e r .arb (by simp)

@[simp] theorem State.afterRemoval_aif (s : State) (e : LockEntry) (r : Option LockResult) :
    (s.afterRemoval e r).aif = s.aif := s.afterRemoval_sameBut e r .aif (by simp)

/-- A removal in its two steps. -/
theorem State.removeLock_eq (s : State) (e : LockEntry) (r : Option LockResult) :
    s.removeLock e r =
      (State.lockNext ((s.afterRemoval e r).wlt.length + 1) e.addr (s.afterRemoval e r)).aeUpdate := by
  cases r <;> rfl

/-- The engine's request after a removal. -/
theorem State.removeLock_aeFollows (s : State) (e : LockEntry) (r : Option LockResult) :
    AeFollows s (s.removeLock e r) := by
  rw [State.removeLock_eq]
  refine State.aeUpdate_follows_of ?_ ?_
  · exact (State.lockNext_sameBut _ _ _ .arb (by simp)).trans (s.afterRemoval_arb e r)
  · exact (State.lockNext_sameBut _ _ _ .aif (by simp)).trans (s.afterRemoval_aif e r)

/-- With no entry left for the word, its holds end. -/
theorem State.removeLock_last {s : State} {e : LockEntry} {r : Option LockResult}
    (h : ∀ x ∈ s.wlt.filter (·.port != e.port), x.addr ≠ e.addr) :
    s.removeLock e r = ((s.afterRemoval e r).releaseHeldAtomic e.addr).aeUpdate := by
  rw [State.removeLock_eq, State.lockNext_none]
  simpa [State.firstLock] using h

/-- The entry first for a word, by its place. -/
theorem State.firstLock_of_split {s : State} {w : Addr} {older younger : List LockEntry} {x : LockEntry}
    (h : s.wlt = older ++ x :: younger) (ho : ∀ y ∈ older, y.addr ≠ w) (hx : x.addr = w) : s.firstLock w = some x := by
  simp only [State.firstLock, h, List.find?_append, List.find?_cons, hx, beq_self_eq_true]
  have : older.find? (·.addr == w) = none := by simpa using ho
  simp [this]

/-- The next entry finds a FAULTED one and is removed in its turn. -/
theorem State.removeLock_faultedNext {s : State} {e x : LockEntry} {r : Option LockResult}
    (hf : (s.afterRemoval e r).firstLock e.addr = some x) (hx : x.state = .waitTurn)
    (hm : s.mbAsk e.addr = .faulted) :
    s.removeLock e r = (s.afterRemoval e r).removeLock x (some .faulted) := by
  have hmem := State.firstLock_some hf
  rw [State.removeLock_eq, State.removeLock_eq,
    State.lockNext_faulted hf hx ((State.mbAsk_of_mb (s.afterRemoval_mb e r) _).trans hm), hmem.2]
  have hl := State.eraseLock_length hmem.1
  have hd : (((s.afterRemoval e r).eraseLock x.port).deliver x .faulted).wlt =
      ((s.afterRemoval e r).eraseLock x.port).wlt := State.deliver_wlt _ _ _
  congr 1
  exact State.lockNext_fuel _ _ _ _ (by rw [hd]; omega) (Nat.lt_succ_self _)

end Sys2Proof.Machine
end

