-- ==== Sys2Proof/Laws/Links.lean ====
section
/-! SUPPORT. The frames that wait on a link: when the first of them must wait, and that taking a frame leaves the others
where they are. -/

namespace Sys2Proof.Machine

/-- A frame waits exactly when it is a beat that the port is not ready for. -/
theorem State.canTake_eq_false_iff {s : State} {p : SpId} {f : Frame} : s.canTake p f = false ↔ BeatWaits s p f := by
  unfold State.canTake BeatWaits State.matchingBeat State.beatReady Burst.awaiting Burst.lastOperand
  cases (s.sp p).burst with
  | none => simp
  | some b =>
    cases hp : b.phase <;> cases ha : b.opA <;> simp [hp, ha] <;> tauto

/-! ### What waits on the links is left alone -/

set_option linter.unusedSimpArgs false
set_option linter.unusedTactic false
set_option linter.unreachableTactic false
set_option linter.unnecessarySeqFocus false

variable (s : State)

/-- A change of one port that leaves what waits on its link leaves what waits on both. -/
theorem State.setSp_inbound {p : SpId} {x : StreamPort} (h : x.inbound = (s.sp p).inbound) (q : SpId) :
    ((s.setSp p x).sp q).inbound = (s.sp q).inbound := by
  cases p <;> cases q <;> first | exact h | rfl

@[simp] theorem State.setBurst_inbound (p : SpId) (b : Option Burst) (q : SpId) :
    ((s.setBurst p b).sp q).inbound = (s.sp q).inbound := by
  unfold State.setBurst
  exact s.setSp_inbound (by rfl) q

@[simp] theorem State.send_inbound (p : SpId) (ms : List LinkMsg) (q : SpId) :
    ((s.send p ms).sp q).inbound = (s.sp q).inbound := by
  unfold State.send
  exact s.setSp_inbound (by rfl) q

@[simp] theorem State.awaitBeat_inbound (p : SpId) (b : Burst) (ph : BurstPhase) (q : SpId) :
    ((s.awaitBeat p b ph).sp q).inbound = (s.sp q).inbound := by
  unfold State.awaitBeat
  exact s.setSp_inbound (by rfl) q

@[simp] theorem State.endBurst_inbound (p : SpId) (st : EndStatus) (q : SpId) :
    ((s.endBurst p st).sp q).inbound = (s.sp q).inbound := by
  unfold State.endBurst
  (try dsimp only)
  (repeat' split) <;> (try dsimp only) <;> (repeat' split) <;> simp [State.setSp_inbound]

@[simp] theorem State.suspend_inbound (p : SpId) (c : SuspendCause) (q : SpId) :
    ((s.suspend p c).sp q).inbound = (s.sp q).inbound := by
  unfold State.suspend
  (try dsimp only)
  (repeat' split) <;> (try dsimp only) <;> (repeat' split) <;> simp [State.setSp_inbound]

@[simp] theorem State.logRecord_inbound (r : ErrorRecord) (q : SpId) :
    ((s.logRecord r).sp q).inbound = (s.sp q).inbound := by
  unfold State.logRecord
  (try dsimp only)
  (repeat' split) <;> (try dsimp only) <;> (repeat' split) <;> simp [State.setSp_inbound]

@[simp] theorem State.setPpPhase_inbound (ph : PpPhase) (q : SpId) :
    ((s.setPpPhase ph).sp q).inbound = (s.sp q).inbound := by
  unfold State.setPpPhase
  (try dsimp only)
  (repeat' split) <;> (try dsimp only) <;> (repeat' split) <;> simp [State.setSp_inbound]

@[simp] theorem State.ppComplete_inbound (st : CplStatus) (d : Word) (q : SpId) :
    ((s.ppComplete st d).sp q).inbound = (s.sp q).inbound := by
  unfold State.ppComplete
  (try dsimp only)
  (repeat' split) <;> (try dsimp only) <;> (repeat' split) <;> simp [State.setSp_inbound]

@[simp] theorem State.setSlot_inbound (r : Requester) (x : Option Request) (q : SpId) :
    ((s.setSlot r x).sp q).inbound = (s.sp q).inbound := by
  unfold State.setSlot
  (try dsimp only)
  (repeat' split) <;> (try dsimp only) <;> (repeat' split) <;> simp [State.setSp_inbound]

@[simp] theorem State.request_inbound (r : Requester) (k : AccessKind) (a : Addr) (q : SpId) :
    ((s.request r k a).sp q).inbound = (s.sp q).inbound := by
  unfold State.request
  (try dsimp only)
  (repeat' split) <;> (try dsimp only) <;> (repeat' split) <;> simp [State.setSp_inbound]

@[simp] theorem State.mbCoalesce_inbound (e : Fin 8) (m : MergeWrite) (q : SpId) :
    ((s.mbCoalesce e m).sp q).inbound = (s.sp q).inbound := by
  unfold State.mbCoalesce
  (try dsimp only)
  (repeat' split) <;> (try dsimp only) <;> (repeat' split) <;> simp [State.setSp_inbound]

@[simp] theorem State.mbAllocate_inbound (e : Fin 8) (m : MergeWrite) (q : SpId) :
    ((s.mbAllocate e m).sp q).inbound = (s.sp q).inbound := by
  unfold State.mbAllocate
  (try dsimp only)
  (repeat' split) <;> (try dsimp only) <;> (repeat' split) <;> simp [State.setSp_inbound]

@[simp] theorem State.mbWait_inbound (m : MergeWrite) (q : SpId) :
    ((s.mbWait m).sp q).inbound = (s.sp q).inbound := by
  unfold State.mbWait
  (try dsimp only)
  (repeat' split) <;> (try dsimp only) <;> (repeat' split) <;> simp [State.setSp_inbound]

@[simp] theorem State.mbHold_inbound (m : MergeWrite) (q : SpId) :
    ((s.mbHold m).sp q).inbound = (s.sp q).inbound := by
  unfold State.mbHold
  (try dsimp only)
  (repeat' split) <;> (try dsimp only) <;> (repeat' split) <;> simp [State.setSp_inbound]

@[simp] theorem State.mbOffer_inbound (m : MergeWrite) (q : SpId) :
    ((s.mbOffer m).2.sp q).inbound = (s.sp q).inbound := by
  unfold State.mbOffer
  (repeat' split) <;> simp

@[simp] theorem State.beatAccepted_inbound (p : SpId) (q : SpId) :
    ((s.beatAccepted p).sp q).inbound = (s.sp q).inbound := by
  unfold State.beatAccepted
  (try dsimp only)
  (repeat' split) <;> (try dsimp only) <;> (repeat' split) <;> simp [State.setSp_inbound]

@[simp] theorem State.mbTell_inbound (r : Port) (a : MbAnswer) (q : SpId) :
    ((s.mbTell r a).sp q).inbound = (s.sp q).inbound := by
  unfold State.mbTell
  (try dsimp only)
  (repeat' split) <;> (try dsimp only) <;> (repeat' split) <;> simp [State.setSp_inbound]

@[simp] theorem State.mergeIssue_inbound (m : MergeWrite) (q : SpId) :
    ((s.mergeIssue m).sp q).inbound = (s.sp q).inbound := by
  unfold State.mergeIssue
  (try dsimp only)
  (repeat' split) <;> (try dsimp only) <;> (repeat' split) <;> simp [State.setSp_inbound]

@[simp] theorem State.mergeWithdraw_inbound (r : Port) (q : SpId) :
    ((s.mergeWithdraw r).sp q).inbound = (s.sp q).inbound := by
  unfold State.mergeWithdraw
  (try dsimp only)
  (repeat' split) <;> (try dsimp only) <;> (repeat' split) <;> simp [State.setSp_inbound]

@[simp] theorem State.answerAtomic_inbound (p : SpId) (g : Tag) (r : LockResult) (q : SpId) :
    ((s.answerAtomic p g r).sp q).inbound = (s.sp q).inbound := by
  unfold State.answerAtomic
  (try dsimp only)
  (repeat' split) <;> (try dsimp only) <;> (repeat' split) <;> simp [State.setSp_inbound]

@[simp] theorem State.deliver_inbound (e : LockEntry) (r : LockResult) (q : SpId) :
    ((s.deliver e r).sp q).inbound = (s.sp q).inbound := by
  unfold State.deliver
  (try dsimp only)
  (repeat' split) <;> (try dsimp only) <;> (repeat' split) <;> simp [State.setSp_inbound]

@[simp] theorem State.eraseLock_inbound (r : Port) (q : SpId) :
    ((s.eraseLock r).sp q).inbound = (s.sp q).inbound := by
  unfold State.eraseLock
  (try dsimp only)
  (repeat' split) <;> (try dsimp only) <;> (repeat' split) <;> simp [State.setSp_inbound]

@[simp] theorem State.setLockState_inbound (r : Port) (st : LockState) (q : SpId) :
    ((s.setLockState r st).sp q).inbound = (s.sp q).inbound := by
  unfold State.setLockState
  (try dsimp only)
  (repeat' split) <;> (try dsimp only) <;> (repeat' split) <;> simp [State.setSp_inbound]

@[simp] theorem State.releaseHeldAtomic_inbound (w : Addr) (q : SpId) :
    ((s.releaseHeldAtomic w).sp q).inbound = (s.sp q).inbound := by
  unfold State.releaseHeldAtomic
  (try dsimp only)
  (repeat' split) <;> (try dsimp only) <;> (repeat' split) <;> simp [State.setSp_inbound]

@[simp] theorem State.aeUpdate_inbound (q : SpId) :
    (s.aeUpdate.sp q).inbound = (s.sp q).inbound := by
  unfold State.aeUpdate
  (try dsimp only)
  (repeat' split) <;> (try dsimp only) <;> (repeat' split) <;> simp [State.setSp_inbound]

@[simp] theorem State.lockNext_inbound (n : Nat) (w : Addr) (q : SpId) :
    ((State.lockNext n w s).sp q).inbound = (s.sp q).inbound := by
  induction n generalizing s with
  | zero => rfl
  | succ n ih =>
    unfold State.lockNext
    (repeat' split) <;> simp [ih]

@[simp] theorem State.createLock_inbound (e : LockEntry) (q : SpId) :
    ((s.createLock e).sp q).inbound = (s.sp q).inbound := by
  unfold State.createLock
  (try dsimp only)
  (repeat' split) <;> (try dsimp only) <;> (repeat' split) <;> simp [State.setSp_inbound]

@[simp] theorem State.removeLock_inbound (e : LockEntry) (r : Option LockResult) (q : SpId) :
    ((s.removeLock e r).sp q).inbound = (s.sp q).inbound := by
  unfold State.removeLock
  (try dsimp only)
  (repeat' split) <;> (try dsimp only) <;> (repeat' split) <;> simp [State.setSp_inbound]

@[simp] theorem State.cancelLock_inbound (r : Port) (q : SpId) :
    ((s.cancelLock r).sp q).inbound = (s.sp q).inbound := by
  unfold State.cancelLock
  (try dsimp only)
  (repeat' split) <;> (try dsimp only) <;> (repeat' split) <;> simp [State.setSp_inbound]

@[simp] theorem State.holdBurst_inbound (p : SpId) (b : Burst) (ph : BurstPhase) (h : HoldAt) (q : SpId) :
    ((s.holdBurst p b ph h).sp q).inbound = (s.sp q).inbound := by
  unfold State.holdBurst
  (try dsimp only)
  (repeat' split) <;> (try dsimp only) <;> (repeat' split) <;> simp [State.setSp_inbound]

@[simp] theorem State.takeWriteBeat_inbound (p : SpId) (b : Burst) (d : Word) (m : LaneMask) (q : SpId) :
    ((s.takeWriteBeat p b d m).sp q).inbound = (s.sp q).inbound := by
  unfold State.takeWriteBeat
  (try dsimp only)
  (repeat' split) <;> (try dsimp only) <;> (repeat' split) <;> simp [State.setSp_inbound]

@[simp] theorem State.takeOperand_inbound (p : SpId) (b : Burst) (d : Word) (q : SpId) :
    ((s.takeOperand p b d).sp q).inbound = (s.sp q).inbound := by
  unfold State.takeOperand
  (try dsimp only)
  (repeat' split) <;> (try dsimp only) <;> (repeat' split) <;> simp [State.setSp_inbound]

@[simp] theorem State.refuseHeader_inbound (p : SpId) (f : Frame) (c : ProtocolCause) (q : SpId) :
    ((s.refuseHeader p f c).sp q).inbound = (s.sp q).inbound := by
  unfold State.refuseHeader
  (try dsimp only)
  (repeat' split) <;> (try dsimp only) <;> (repeat' split) <;> simp [State.setSp_inbound]

@[simp] theorem State.takeHeader_inbound (p : SpId) (f : Frame) (q : SpId) :
    ((s.takeHeader p f).sp q).inbound = (s.sp q).inbound := by
  unfold State.takeHeader
  (try dsimp only)
  (repeat' split) <;> (try dsimp only) <;> (repeat' split) <;> simp [State.setSp_inbound]

@[simp] theorem State.takeBeat_inbound (p : SpId) (f : Frame) (q : SpId) :
    ((s.takeBeat p f).sp q).inbound = (s.sp q).inbound := by
  unfold State.takeBeat
  (try dsimp only)
  (repeat' split) <;> (try dsimp only) <;> (repeat' split) <;> simp [State.setSp_inbound]

@[simp] theorem State.abortQueued_inbound (p : SpId) (g : Tag) (q : SpId) :
    ((s.abortQueued p g).sp q).inbound = (s.sp q).inbound := by
  unfold State.abortQueued
  (try dsimp only)
  (repeat' split) <;> (try dsimp only) <;> (repeat' split) <;> simp [State.setSp_inbound]

@[simp] theorem State.abortBurst_inbound (p : SpId) (b : Burst) (q : SpId) :
    ((s.abortBurst p b).sp q).inbound = (s.sp q).inbound := by
  unfold State.abortBurst
  (try dsimp only)
  (repeat' split) <;> (try dsimp only) <;> (repeat' split) <;> simp [State.setSp_inbound]

@[simp] theorem State.takeAbort_inbound (p : SpId) (g : Tag) (q : SpId) :
    ((s.takeAbort p g).sp q).inbound = (s.sp q).inbound := by
  unfold State.takeAbort
  (try dsimp only)
  (repeat' split) <;> (try dsimp only) <;> (repeat' split) <;> simp [State.setSp_inbound]

/-- Taking a frame leaves the frames that wait on the links where they are. -/
@[simp] theorem State.takeFrame_inbound (p : SpId) (f : Frame) (q : SpId) :
    ((s.takeFrame p f).sp q).inbound = (s.sp q).inbound := by
  unfold State.takeFrame
  (try dsimp only)
  (repeat' split) <;> (try dsimp only) <;> (repeat' split) <;> simp [State.setSp_inbound]

end Sys2Proof.Machine
end

