-- ==== Sys2Proof/Laws/PerInstr.lean ====
section
/-! SUPPORT. The per-command families: for every constructor of Instr, one lemma. -/

namespace Sys2Proof.Laws.NoWord

/-- No word spells the command: the opcode table gives its row no bits (log 21). -/
def Statement (i : Instr) : Prop := ∀ nbits w : Nat, decodeTableWord nbits w ≠ some i

theorem resetAssert : Statement (.resetAssert) := by
  intro _ _ h
  cases h

theorem resetRelease : Statement (.resetRelease) := by
  intro _ _ h
  cases h

theorem tick : Statement (.tick) := by
  intro _ _ h
  cases h

theorem beatTimerExpiry (p : SpId) : Statement (.beatTimerExpiry p) := by
  intro _ _ h
  cases h

theorem intervalExpiry : Statement (.intervalExpiry) := by
  intro _ _ h
  cases h

theorem ctrlStatusRead (b : Bus) : Statement (.ctrlStatusRead b) := by
  intro _ _ h
  cases h

theorem cplPop (b : Bus) : Statement (.cplPop b) := by
  intro _ _ h
  cases h

theorem reqSubmit (b : Bus) (v : Reg16) : Statement (.reqSubmit b v) := by
  intro _ _ h
  cases h

theorem cfgMemsizeWrite (b : Bus) (v : Reg16) : Statement (.cfgMemsizeWrite b v) := by
  intro _ _ h
  cases h

theorem cfgPrescaleWrite (b : Bus) (v : Reg16) : Statement (.cfgPrescaleWrite b v) := by
  intro _ _ h
  cases h

theorem cfgWatermarksWrite (b : Bus) (v : Reg16) : Statement (.cfgWatermarksWrite b v) := by
  intro _ _ h
  cases h

theorem cfgProtectWrite (b : Bus) (v : Reg16) : Statement (.cfgProtectWrite b v) := by
  intro _ _ h
  cases h

theorem irqPendingWrite (b : Bus) (v : Reg16) : Statement (.irqPendingWrite b v) := by
  intro _ _ h
  cases h

theorem registerWrite (b : Bus) (off : BitVec 7) (v : Reg16) : Statement (.registerWrite b off v) := by
  intro _ _ h
  cases h

theorem run (b : Bus) (arg : BitVec 8) : Statement (.run b arg) := by
  intro _ _ h
  cases h

theorem halt (b : Bus) (arg : BitVec 8) : Statement (.halt b arg) := by
  intro _ _ h
  cases h

theorem portEnable (b : Bus) (arg : BitVec 8) : Statement (.portEnable b arg) := by
  intro _ _ h
  cases h

theorem portDisable (b : Bus) (arg : BitVec 8) : Statement (.portDisable b arg) := by
  intro _ _ h
  cases h

theorem portReset (b : Bus) (arg : BitVec 8) : Statement (.portReset b arg) := by
  intro _ _ h
  cases h

theorem portResume (b : Bus) (arg : BitVec 8) : Statement (.portResume b arg) := by
  intro _ _ h
  cases h

theorem loadRegion (b : Bus) (arg : BitVec 8) : Statement (.loadRegion b arg) := by
  intro _ _ h
  cases h

theorem viewRegion (b : Bus) (arg : BitVec 8) : Statement (.viewRegion b arg) := by
  intro _ _ h
  cases h

theorem viewEntry (b : Bus) (arg : BitVec 8) : Statement (.viewEntry b arg) := by
  intro _ _ h
  cases h

theorem resolveDiscard (b : Bus) (arg : BitVec 8) : Statement (.resolveDiscard b arg) := by
  intro _ _ h
  cases h

theorem resolveForce (b : Bus) (arg : BitVec 8) : Statement (.resolveForce b arg) := by
  intro _ _ h
  cases h

theorem scrubStart (b : Bus) (arg : BitVec 8) : Statement (.scrubStart b arg) := by
  intro _ _ h
  cases h

theorem scrubStop (b : Bus) (arg : BitVec 8) : Statement (.scrubStop b arg) := by
  intro _ _ h
  cases h

theorem fillStart (b : Bus) (arg : BitVec 8) : Statement (.fillStart b arg) := by
  intro _ _ h
  cases h

theorem fillStop (b : Bus) (arg : BitVec 8) : Statement (.fillStop b arg) := by
  intro _ _ h
  cases h

theorem logPop (b : Bus) (arg : BitVec 8) : Statement (.logPop b arg) := by
  intro _ _ h
  cases h

theorem logClearOverflow (b : Bus) (arg : BitVec 8) : Statement (.logClearOverflow b arg) := by
  intro _ _ h
  cases h

theorem clearCounts (b : Bus) (arg : BitVec 8) : Statement (.clearCounts b arg) := by
  intro _ _ h
  cases h

theorem unknownCommand (b : Bus) (code : BitVec 8) (arg : BitVec 8) : Statement (.unknownCommand b code arg) := by
  intro _ _ h
  cases h

theorem header (p : SpId) (f : Arrival) : Statement (.header p f) := by
  intro _ _ h
  cases h

theorem writeBeat (p : SpId) (f : Arrival) (together : Bool) : Statement (.writeBeat p f together) := by
  intro _ _ h
  cases h

theorem abort (p : SpId) (f : AbortArrival) : Statement (.abort p f) := by
  intro _ _ h
  cases h

theorem discardedFrame (p : SpId) (f : Arrival) : Statement (.discardedFrame p f) := by
  intro _ _ h
  cases h

theorem prqDispatch : Statement (.prqDispatch) := by
  intro _ _ h
  cases h

theorem srqDispatch (p : SpId) : Statement (.srqDispatch p) := by
  intro _ _ h
  cases h

theorem arrayGrant : Statement (.arrayGrant) := by
  intro _ _ h
  cases h

theorem drainStart : Statement (.drainStart) := by
  intro _ _ h
  cases h

theorem resolveWriteRequest : Statement (.resolveWriteRequest) := by
  intro _ _ h
  cases h

theorem ppReadCompletion : Statement (.ppReadCompletion) := by
  intro _ _ h
  cases h

theorem streamReadCompletion : Statement (.streamReadCompletion) := by
  intro _ _ h
  cases h

theorem drainReadCompletion : Statement (.drainReadCompletion) := by
  intro _ _ h
  cases h

theorem drainWriteCompletion : Statement (.drainWriteCompletion) := by
  intro _ _ h
  cases h

theorem atomicReadCompletion : Statement (.atomicReadCompletion) := by
  intro _ _ h
  cases h

theorem atomicWriteCompletion : Statement (.atomicWriteCompletion) := by
  intro _ _ h
  cases h

theorem patrolReadCompletion : Statement (.patrolReadCompletion) := by
  intro _ _ h
  cases h

theorem patrolWriteCompletion : Statement (.patrolWriteCompletion) := by
  intro _ _ h
  cases h

theorem fillWriteCompletion : Statement (.fillWriteCompletion) := by
  intro _ _ h
  cases h

theorem lockHoldRelease (q : Port) : Statement (.lockHoldRelease q) := by
  intro _ _ h
  cases h

theorem fenceHoldRelease (q : Port) : Statement (.fenceHoldRelease q) := by
  intro _ _ h
  cases h

theorem waitingWriterAllocation : Statement (.waitingWriterAllocation) := by
  intro _ _ h
  cases h

theorem forcedDrainSignal : Statement (.forcedDrainSignal) := by
  intro _ _ h
  cases h

theorem flushCompletion : Statement (.flushCompletion) := by
  intro _ _ h
  cases h

theorem quiesceComplete : Statement (.quiesceComplete) := by
  intro _ _ h
  cases h

theorem arrayDisturbance (a : Addr) (flips : Bits39) : Statement (.arrayDisturbance a flips) := by
  intro _ _ h
  cases h

theorem refclkPeriod : Statement (.refclkPeriod) := by
  intro _ _ h
  cases h

end Sys2Proof.Laws.NoWord
end

