-- ==== Sys2Proof/Tests/Slice0.lean ====
section
/-! SUPPORT. Tests of the model: the WellFormed smoke, the spec's worked examples in single steps, and, for every statement
with hypotheses, concrete states and operands that meet them (`witness_<statement>`). -/

namespace Sys2Proof.Tests

-- One theorem at a time: many kernel evaluations at once would take too many threads.
set_option Elab.async false

open Sys2Proof.Machine

/-! ### Small states -/

/-- A bus access that is taken. -/
def bus : Bus := { chipSelect := true, otherStrobe := false, crossed := false, sinceRelease := true, together := false }

/-- The next state of a command. -/
def after (c : Instr) (s : State) : State :=
  match exec c s with
  | .next t => t
  | .fault _ | .refused _ => s

/-- A controller state. -/
def ctlIs (c : CtrlState) (s : State) : State := s.setCtl { s.ctl with state := c }

/-- RUNNING after reset. -/
def running : State := ctlIs .running .reset

/-- An entry for a word, the youngest. -/
def withEntry (e : Fin 8) (x : Entry) (s : State) : State :=
  s.setMb { s.mb.setEntry e x with age := s.mb.age ++ [e] }

/-- An entry in a state, with a mask. -/
def entryIn (st : EntryState) (a : Addr) (m : LaneMask) : Entry :=
  { Entry.default with state := st, addr := a, data := 0xDDCCBBAA#32, mask := m }

/-- All eight entries in a state, for the words 0 to 7. -/
def allEntries (st : EntryState) (s : State) : State :=
  entryIds.foldl (fun t e => withEntry e (entryIn st (BitVec.ofNat 20 e.val) 1#4) t) s

/-- The drain engine in a phase with an entry. -/
def drainIs (ph : DrainPhase) (e : Fin 8) (s : State) : State := s.setMb { s.mb with drain := { phase := ph, entry := some e } }

/-- A header at word 100h. -/
def head (op : StreamOp) (len : Nat) (tag : Tag) : Header := { op := op, length := len, tag := tag, addr := 0x100#20 }

/-- A burst of a header in a phase. -/
def burst (h : Header) (ph : BurstPhase) : Burst := { h.start with phase := ph }

/-- SP0 in a port state with headers, credits and a burst. -/
def port (st : PortState) (srq : List Header) (credits : Nat) (b : Option Burst) (s : State) : State :=
  s.setSp .sp0 { s.sp0 with state := st, srq := srq, credits := credits, burst := b }

/-- SP0 ENABLED and executing. -/
def busy (h : Header) (ph : BurstPhase) (s : State) : State := port .enabled [h] 3 (some (burst h ph)) s

/-- A lock entry of a port at word 100h. -/
def lock (q : Port) (st : LockState) : LockEntry :=
  { port := q, tag := 1#4, addr := 0x100#20, op := .swap, opA := 7#32, opB := none, state := st, cancelled := false }

/-- A processor request of word 100h. -/
def request (op : ReqOp) : PpRequest :=
  { op := op, size := .word, tag := 5#4, addr := 0x400#22, opA := 1#32, opB := 2#32 }

/-- The executing request in a phase. -/
def executing (op : ReqOp) (ph : PpPhase) (s : State) : State :=
  s.setPpt { s.ppt with exec := some { req := request op, phase := ph } }

/-- An access in flight at word 100h. -/
def access (k : AccessKind) (r : Requester) (d : Option Word) : Access :=
  { kind := k, requester := r, addr := 0x100#20, writeData := d, readData := d, outcome := d.map fun _ => .clean }

/-- The array interface in a state with an access. -/
def flying (st : AifState) (a : Access) (s : State) : State := s.setAif { state := st, access := some a }

/-- Word 100h as written, with flips. -/
def stored (d : Word) (flips : Bits39) (s : State) : State :=
  s.setArray (s.array.put 0x100 { base := .written d, flips := flips })

/-- A link frame: type, tag and the bits from 8 up. -/
def frame (type : Nat) (tag : Nat) (high : Nat) : Frame := BitVec.ofNat 48 (type + 16 * tag + 256 * high)

/-- A merge write of a port at word 100h. -/
def merge (q : Port) (m : LaneMask) : MergeWrite := { port := q, addr := 0x100#20, data := 0x44332211#32, mask := m }

/-- The scrub engine in a state. -/
def scrub (st : ScrubState) (s : State) : State := s.setSce { s.sce with state := st }

/-- A request of one requester for word 100h. -/
def asking (r : Requester) (k : AccessKind) (s : State) : State := s.request r k 0x100#20

theorem taken_of {s : State} (h : s.resetAsserted = false) : Taken s bus := ⟨h, rfl, rfl, rfl, rfl⟩

/-! ### WellFormed refuses each ill-formed operand -/

theorem test_registerWrite_of_command : WellFormed (.registerWrite bus 0x02#7 0#16) = false := by decide
theorem test_unknownCommand_of_run : WellFormed (.unknownCommand bus 0x01#8 0#8) = false := by decide
theorem test_header_of_beat : WellFormed (.header .sp0 ⟨frame 2 0 0, true⟩) = false := by decide
theorem test_writeBeat_of_abort : WellFormed (.writeBeat .sp0 ⟨frame 3 0 0, true⟩ false) = false := by decide
theorem test_abort_of_header : WellFormed (.abort .sp0 ⟨⟨frame 1 0 0, true⟩, false⟩) = false := by decide
theorem test_discardedFrame_of_header : WellFormed (.discardedFrame .sp0 ⟨frame 1 0 0, true⟩) = false := by decide
theorem test_arrayDisturbance_of_nothing : WellFormed (.arrayDisturbance 0#20 0#39) = false := by decide
theorem test_wellFormed_frames :
    WellFormed (.header .sp0 ⟨frame 1 0 0, true⟩) = true ∧ WellFormed (.discardedFrame .sp1 ⟨frame 15 0 0, true⟩) = true := by decide

/-! ### No word spells a command -/

theorem test_no_word_decodes : decodeTableWord 0 0 = none ∧ State.reset.withFetchWord 16 1 = State.reset := ⟨rfl, rfl⟩

/-! ### The spec's worked examples -/

/-- 01, Examples of decode reporting. -/
theorem test_decode_examples :
    (stored 0xFF#32 0#39 .reset).readArray 0x100#20 = (0xFF#32, .clean) ∧
    (stored 0xFF#32 (1#39 <<< 8) .reset).readArray 0x100#20 = (0xFF#32, .corrected 9#7) ∧
    (stored 0xFF#32 1#39 .reset).readArray 0x100#20 = (0xFF#32, .corrected 1#7) ∧
    (stored 0xFF#32 (1#39 <<< 35) .reset).readArray 0x100#20 = (0xFF#32, .corrected 36#7) ∧
    (stored 0xFF#32 (1#39 <<< 8 ||| 1#39 <<< 35) .reset).readArray 0x100#20 = (0x1FF#32, .uncorrectable) ∧
    (stored 0xFF#32 (3#39 <<< 8) .reset).readArray 0x100#20 = (0x3FF#32, .uncorrectable) := by decide +kernel

/-- The header of 10's example: READ, word 00400h, length 4, tag 7; bit 35 clear and set. -/
def headerEven : Frame := BitVec.ofNat 48 (1 + 0x400 * 2 ^ 4 + 7 * 2 ^ 24 + 3 * 2 ^ 28)
def headerOdd : Frame := headerEven ||| 1#48 <<< 35

theorem test_header_fields :
    headerOpCode headerEven = 0 ∧ headerAddr headerEven = 0x400#20 ∧ headerLength headerEven = 4 ∧
    headerTag headerEven = 7#4 ∧ headerParityOdd headerEven = false ∧ headerParityOdd headerOdd = true := by decide +kernel

/-- The refused header of the example: END PROTOCOL with tag 7, CREDIT 1, and the record as LOG_POP shows it. -/
theorem test_header_refused :
    let s := after (.header .sp1 ⟨headerEven, true⟩) (after (.portEnable bus 1#8) running)
    let t := after (.logPop bus 0#8) s
    s.sp1.outbound.map LinkMsg.frame = [0x041#48, 0x775#48, 0x011#48] ∧
    s.sp1.state = .suspended ∧ s.sp1.cause = .protocol ∧
    t.regRead 0x4A#7 = 0x0207#16 ∧ t.elog.view.addr = 0x400#20 ∧ t.regRead 0x4B#7 = 0x0171#16 := by decide +kernel

/-- The accepted header of the example is queued against a credit. -/
theorem test_header_queued :
    let s := after (.header .sp1 ⟨headerOdd, true⟩) (after (.portEnable bus 1#8) .reset)
    s.sp1.credits = 3 ∧ s.sp1.srq = [{ op := .read, length := 4, tag := 7#4, addr := 0x400#20 }] := by decide +kernel

/-- Partial words: lanes laid over, and placed right-justified (R22, R117). -/
theorem test_lanes :
    overlayLanes 0x11111111#32 0xAABBCCDD#32 0b0101#4 = 0x11BB11DD#32 ∧
    readResult .half 2#22 0xAABBCCDD#32 = 0xAABB#32 ∧ readResult .byte 1#22 0xAABBCCDD#32 = 0xCC#32 ∧
    writeLanes .byte 3#22 0x12345678#32 = 0x78000000#32 ∧ laneMaskOf .half 2#22 = 0b1100#4 := by decide +kernel

/-- A FETCH_CLEAR and a COMPARE_SWAP that fails (Table 3-1). -/
theorem test_atomic_values :
    AtomicOp.fetchClear.newValue 0x0F#32 none 0xFF#32 = some 0xF0#32 ∧
    AtomicOp.fetchAdd.newValue 1#32 none 0xFFFFFFFF#32 = some 0#32 ∧
    AtomicOp.compareSwap.newValue 1#32 (some 2#32) 3#32 = none := by decide +kernel

/-- A submit in HALTED is queued, and RUN lets it be dispatched by the next step on an empty queue. -/
theorem test_submit_then_run :
    let s := after (.reqSubmit bus 0#16) .reset
    s.ppt.prq.length = 1 ∧ s.ppt.submitStatus = .accepted ∧ (after (.run bus 0#8) s).due = [.prqDispatch] := by
  decide +kernel

/-! ### Events that come together -/

/-- A bus access that comes together with a grant. -/
def busBeside : Bus := { bus with together := true }

/-- R160: a patrol visit whose interval has run out, and SCRUB_STOP together with the expiry at an IDLE interface: the
request is withdrawn and the pointer kept; a stop that comes later finds the access granted. -/
theorem test_stop_beside_expiry :
    let s := after .intervalExpiry ((scrub .patrolWait running).setSce
      { (scrub .patrolWait running).sce with intervalDue := true, patrolPtr := 5#20 })
    let t := after (.scrubStop busBeside 0#8) s
    s.due = [.grant] ∧ t.sce.state = .idle ∧ t.sce.patrolPtr = 5#20 ∧ t.arb.slots.sc = none ∧ t.aif.state = .idle ∧
    (after (.scrubStop bus 0#8) s).sce.state = .patrolAccess := by decide +kernel

/-- R76, R80, log 29: the patrol's interval has run out, and a processor READ comes together with the expiry at an IDLE
interface and is granted first: with the expiry taken before it the grant counts as a bypass, and with the read taken
before the expiry it does not. -/
theorem test_bypass_beside_expiry :
    let waiting := scrub .patrolWait running
    let expiry := fun s : State => after .intervalExpiry (s.setSce { s.sce with intervalDue := true })
    let granted := fun s => after .arrayGrant (after .prqDispatch s)
    let expiryFirst := granted (after (.reqSubmit busBeside 0#16) (expiry waiting))
    let readFirst := expiry (granted (after (.reqSubmit bus 0#16) waiting))
    expiryFirst.sce.state = .patrolRequest ∧ expiryFirst.arb.bypass = 1 ∧ expiryFirst.ppt.exec.isSome ∧
    readFirst.sce.state = .patrolRequest ∧ readFirst.arb.bypass = 0 ∧ readFirst.ppt.exec.isSome := by decide +kernel

/-- A fill's write of word 100h in flight, with a word after it. -/
def fillWriting : State :=
  let s := flying .writing (access .write .sc (some 1#32)) (scrub .fillAccess running)
  s.setSce { s.sce with fillPtr := 0x100#20, fillLast := 0x101#20 }

/-- R170: FILL_STOP together with FILL_WRITE_COMPLETION, the completion first: the next word's request is withdrawn. -/
theorem test_stop_beside_fill_completion :
    let t := after (.fillStop busBeside 0#8) (after .fillWriteCompletion fillWriting)
    t.sce.state = .idle ∧ t.sce.fillResult = .stopped ∧ t.sce.fillPtr = 0x101#20 ∧ t.aif.state = .idle ∧
    (after .fillWriteCompletion (after (.fillStop busBeside 0#8) fillWriting)).sce = t.sce := by decide +kernel

/-- R82: PORT_RESET together with the completion that makes the next word's request: the request is withdrawn. -/
theorem test_reset_beside_stream_completion :
    let s := flying .reading (access .read .sp0 none) (stored 1#32 0#39 (busy (head .read 2 1#4) .readAccess running))
    let u := after .streamReadCompletion s
    u.due = [.grant] ∧ (after (.portReset busBeside 0#8) u).aif.state = .idle ∧
    (after (.portReset busBeside 0#8) u).sp0.discardedRead = none ∧
    (after (.portReset bus 0#8) u).sp0.discardedRead = some 1#4 := by decide +kernel

/-- R105: a resolve write that waits while the six conditions hold does not stop the controller from entering HALTED,
and is granted in HALTED. -/
theorem test_halted_before_resolve_write :
    let s := asking .dr .write (drainIs .resolveWait 0 (withEntry 0
      { entryIn .faulted 0x100#20 15#4 with resolvePending := true } (ctlIs .quiescing .reset)))
    s.due = [.quiesce] ∧ s.eventStart.ctl.state = .halted ∧ s.eventStart.aif.state = .writing := by decide +kernel

/-- R188: a write crossed by the read strobe is not taken. -/
theorem test_crossed_write : after (.run { bus with crossed := true } 0#8) .reset = .reset := by decide +kernel

/-- R199: a frame that began before the release of RESET is not taken. -/
theorem test_partial_frame : after (.header .sp1 ⟨headerOdd, false⟩) .reset = .reset := by decide +kernel

/-! ### Witnesses: the hypotheses of each statement, clause by clause -/

theorem witness_EmptyQueueTakesDueEvent :
    (State.reset.pending = [] ∧ State.reset.due = []) ∧
    (let s := ctlIs .quiescing .reset
     s.pending = [] ∧ s.due = [.quiesce]) ∧
    (let s := asking .sc .paired (scrub .patrolRequest running)
     s.due = [.grant] ∧ s.openGrant .grant = true ∧ s.openGrant .quiesce = false ∧
     running.openGrant .grant = false) ∧
    (let s := executing (.atomic .swap) .lockReleased running
     s.due = [.lockRelease .pp] ∧ (Due.lockRelease .pp).isLockRelease = true) := by decide +kernel

theorem witness_ResetAssertTakesDefaults :
    (after .resetAssert .reset).resetAsserted = true ∧ State.reset.resetAsserted = false ∧
    (let s := flying .writing (access .write .sc (some 1#32)) .reset
     s.resetAsserted = false ∧ s.eventStart.aif = s.aif) ∧
    (let s := flying .pairedWrite (access .paired .sc (some 1#32)) .reset
     s.resetAsserted = false ∧ s.eventStart.aif = s.aif) := by decide +kernel

theorem witness_ReleaseAndHeldReset :
    let s := after .resetAssert .reset
    State.reset.resetAsserted = false ∧ s.resetAsserted = true ∧ Instr.tick ≠ .resetRelease := by decide +kernel

theorem witness_RegisterLayouts :
    State.reset.resetAsserted = false ∧
    (busy (head .write 2 5#4) .beatWait .reset).regRead 0x30#7 = 0x0865#16 ∧
    (busy (head .write 2 5#4) .beatWait .reset).regRead 0x31#7 = 0x0195#16 := by decide +kernel

theorem witness_LinkFramesAndMemoryBus :
    State.reset.aif.state = .idle ∧
    (∀ st ∈ [AifState.reading, .pairedRead], (flying st (access .read .sc none) .reset).memBus.outputEnable = true) ∧
    (∀ st ∈ [AifState.writing, .pairedWrite],
      let s := flying st (access .write .sc (some 0x11223344#32)) .reset
      (access .write .sc (some 0x11223344#32)).writeData = some 0x11223344#32 ∧ s.memBus.address = some 0x100#20) := by
  decide +kernel

theorem witness_RefclkAndTick :
    (let s := State.reset.setCfg { State.reset.cfg with prescale := 1023#16 }
     s.resetAsserted = false ∧ s.eventStart.ctl.prescaleCount + 1 < s.eventStart.cfg.prescale.toNat) ∧
    (let s := scrub .patrolWait .reset
     s.resetAsserted = false ∧ s.eventStart.ctl.prescaleCount + 1 = s.eventStart.cfg.prescale.toNat ∧
     s.eventStart.sce.state = .patrolWait) ∧
    (State.reset.eventStart.ctl.prescaleCount + 1 = State.reset.eventStart.cfg.prescale.toNat ∧
     State.reset.eventStart.sce.state ≠ .patrolWait) := by decide +kernel

/-- A port whose beat timer has reached its timeout. -/
def expired (h : Header) (ph : BurstPhase) : State :=
  let s := busy h ph running
  s.setSp .sp0 { s.sp0 with expiryDue := true, beatTimeout := 1#8, timer := 1 }

theorem witness_TimerExpiries :
    (Ready (expired (head .write 1 3#4) .beatWait) ∧
     ((expired (head .write 1 3#4) .beatWait).sp .sp0).burst = some (burst (head .write 1 3#4) .beatWait) ∧
     ((expired (head .write 1 3#4) .beatWait).sp .sp0).expiryDue = true) ∧
    (Ready (expired (head (.atomic .swap) 1 3#4) .operandWait) ∧
     ((expired (head (.atomic .swap) 1 3#4) .operandWait).sp .sp0).burst =
       some (burst (head (.atomic .swap) 1 3#4) .operandWait)) ∧
    (let s := (scrub .patrolWait running).setSce { (scrub .patrolWait running).sce with intervalDue := true }
     Ready s ∧ s.sce.state = .patrolWait ∧ s.sce.intervalDue = true) := by
  unfold Ready
  decide +kernel

theorem witness_Taken : Taken .reset bus ∧ Taken running bus := ⟨taken_of rfl, taken_of rfl⟩

theorem witness_ReadsWithAnEffect :
    State.reset.eventStart.ppt.cq = [] ∧
    (let s := State.reset.setPpt { State.reset.ppt with cq := [{ tag := 1#4, op := .read, status := .ok, data := 2#32 }] }
     s.resetAsserted = false ∧ s.eventStart.ppt.cq.length = 1) := by decide +kernel

/-- The staging registers with an operation word, and a queue of a length. -/
def staged (op : Reg16) (n : Nat) : State :=
  State.reset.setPpt { State.reset.ppt with reqOp := op, prq := List.replicate n (request .read) }

theorem witness_ReqSubmit :
    (let u := (staged 0x0008#16 0).eventStart
     8 ≤ (u.ppt.reqOp.extractLsb' 0 4).toNat) ∧
    (let u := (staged 0x0030#16 0).eventStart
     (u.ppt.reqOp.extractLsb' 0 4).toNat ≠ 7 ∧ u.ppt.reqOp.extractLsb' 4 2 = 3#2) ∧
    (let u := (staged 0x0016#16 0).eventStart
     (u.ppt.reqOp.extractLsb' 0 4).toNat = 6 ∧ u.ppt.reqOp.extractLsb' 4 2 ≠ 2#2) ∧
    (let u := (staged 0x0026#16 4).eventStart
     (u.ppt.reqOp.extractLsb' 0 4).toNat = 6 ∧ u.ppt.reqOp.extractLsb' 4 2 = 2#2 ∧ 4 ≤ u.ppt.prq.length) ∧
    (let u := (staged 0x0037#16 3).eventStart
     (u.ppt.reqOp.extractLsb' 0 4).toNat = 7 ∧ u.ppt.prq.length < 4) := by decide +kernel

theorem witness_CfgMemsizeWrite :
    (State.reset.eventStart.ctl.state = .halted ∧ ((4#16).extractLsb' 0 3).toNat ≤ 4 ∧
     ∀ e, (State.reset.eventStart.mb.entry e).state = .free) ∧
    ¬ ((5#16).extractLsb' 0 3).toNat ≤ 4 ∧ running.eventStart.ctl.state ≠ .halted ∧
    ((withEntry 7 (entryIn .faulted 0#20 1#4) .reset).eventStart.mb.entry 7).state ≠ .free := by decide +kernel

theorem witness_CfgOtherWrites :
    State.reset.eventStart.ctl.state = .halted ∧ running.eventStart.ctl.state ≠ .halted ∧
    (1 ≤ (1023#16 : Reg16).toNat ∧ (1023#16 : Reg16).toNat ≤ 1023) ∧ ¬ (1024#16 : Reg16).toNat ≤ 1023 ∧
    (let v : Reg16 := 0x0808#16
     1 ≤ (v.extractLsb' 0 4).toNat ∧ (v.extractLsb' 0 4).toNat ≤ (v.extractLsb' 8 4).toNat ∧
     (v.extractLsb' 8 4).toNat ≤ 8) ∧
    (let v : Reg16 := 0x0708#16
     ¬ (v.extractLsb' 0 4).toNat ≤ (v.extractLsb' 8 4).toNat) := by decide +kernel

theorem witness_RegisterWriteReadsBack :
    0x0C#7 ∉ ownBehaviourOffsets ∧ 0x7F#7 ∉ ownBehaviourOffsets ∧ State.reset.resetAsserted = false := by decide +kernel

theorem witness_UntakenAccess :
    State.reset.resetAsserted = false ∧ ({ bus with chipSelect := false } : Bus).chipSelect = false ∧
    ({ bus with otherStrobe := true } : Bus).otherStrobe = true ∧ ({ bus with crossed := true } : Bus).crossed = true ∧
    ({ bus with sinceRelease := false } : Bus).sinceRelease = false := by decide +kernel

theorem witness_RunAndHalt :
    State.reset.eventStart.ctl.state = .halted ∧ running.eventStart.ctl.state ≠ .halted ∧
    running.eventStart.ctl.state = .running ∧ State.reset.eventStart.ctl.state ≠ .running ∧
    (scrub .patrolWait running).eventStart.sce.state = .patrolWait ∧
    QuiesceHolds running.eventStart ∧
    ¬ QuiesceHolds (flying .reading (access .read .pp none) running).eventStart := by
  unfold QuiesceHolds
  decide +kernel

theorem witness_NamesPort : NamesPort 0#8 .sp0 ∧ NamesPort 1#8 .sp1 ∧ 2#8 ≤ 2#8 := by
  unfold NamesPort
  decide

theorem witness_PortEnableAndResume :
    (State.reset.eventStart.sp .sp0).state = .disabled ∧
    ((port .suspended [] 4 none .reset).eventStart.sp .sp0).state = .suspended ∧
    ((port .disabling [head .read 1 0#4] 0 (some (burst (head .read 1 0#4) .readHold)) .reset).eventStart.sp .sp0).state ≠
      .disabled := by decide +kernel

theorem witness_PortDisable :
    (State.reset.eventStart.sp .sp0).state = .disabled ∧
    (let u := (port .enabled [] 4 none .reset).eventStart
     (u.sp .sp0).state = .enabled ∧ (u.sp .sp0).burst = none) ∧
    (let u := (busy (head .write 2 1#4) .beatWait .reset).eventStart
     (u.sp .sp0).state = .enabled ∧ (u.sp .sp0).burst = some (burst (head .write 2 1#4) .beatWait)) := by decide +kernel

theorem witness_PortReset :
    (State.reset.eventStart.sp .sp0).burst = none ∧
    (∀ ph ∈ [BurstPhase.readWait, .readAccess, .beatWait, .merge, .operandWait, .locked],
      ((busy (head .write 2 1#4) ph .reset).eventStart.sp .sp0).burst = some (burst (head .write 2 1#4) ph)) := by
  decide +kernel

theorem witness_RegionCommands :
    16#8 ≤ 16#8 ∧ (15#8).toNat = (15 : Fin 16).val ∧
    State.reset.eventStart.acu.rgnFirst.toNat ≤ State.reset.eventStart.acu.rgnLast.toNat ∧
    (let u := (State.reset.setAcu { State.reset.acu with rgnFirst := 1#14 }).eventStart
     u.acu.rgnLast.toNat < u.acu.rgnFirst.toNat) := by decide +kernel

theorem witness_ViewEntry :
    8#8 ≤ 8#8 ∧ (7#8).toNat = (7 : Fin 8).val ∧
    (withEntry 7 (entryIn .pending 3#20 5#4) .reset).eventStart.mb.agePosition 7 < 8 := by decide +kernel

/-- Entry 7 FAULTED. -/
def faulted7 : State := withEntry 7 (entryIn .faulted 3#20 5#4) .reset

/-- Entry 7 FAULTED and resolve-pending. -/
def forced7 : State := withEntry 7 { entryIn .faulted 3#20 15#4 with resolvePending := true } .reset

theorem witness_ResolveCommands :
    (State.reset.eventStart.mb.entry 7).state ≠ .faulted ∧
    ((faulted7.eventStart.mb.entry 7).state = .faulted ∧ (faulted7.eventStart.mb.entry 7).resolvePending = false ∧
     faulted7.eventStart.mb.drain ≠ { phase := .resolveWait, entry := some 7 }) ∧
    (let u := (flying .reading (access .read .pp none) (drainIs .resolveWait 7 forced7)).eventStart
     (u.mb.entry 7).state = .faulted ∧ (u.mb.entry 7).resolvePending = true ∧
     u.mb.drain = { phase := .resolveWait, entry := some 7 }) := by decide +kernel

theorem witness_ScrubCommands :
    (running.eventStart.ctl.state = .running ∧ running.eventStart.sce.state = .idle ∧
     running.eventStart.sce.regInterval ≠ 0#16) ∧
    (let u := (running.setSce { running.sce with regInterval := 0#16 }).eventStart
     u.ctl.state = .running ∧ u.sce.state = .idle ∧ u.sce.regInterval = 0#16) ∧
    State.reset.eventStart.ctl.state ≠ .running ∧
    ((scrub .patrolWait running).eventStart.sce.state = .patrolWait) ∧
    ((asking .sc .paired (scrub .patrolRequest running)).eventStartBy true).sce.state = .patrolRequest ∧
    (flying .pairedRead (access .paired .sc none) (scrub .patrolAccess running)).eventStart.sce.state = .patrolAccess := by decide +kernel

/-- RUNNING with a fill range. -/
def filling (first last : Addr) (s : State) : State :=
  s.setSce { s.sce with regFillFirst := first, regFillLast := last }

theorem witness_FillCommands :
    (let u := (filling 0#20 0xFFFF#20 running).eventStart
     u.ctl.state = .running ∧ u.sce.state = .idle ∧ u.sce.regFillFirst.toNat ≤ u.sce.regFillLast.toNat ∧
     u.sce.regFillLast.toNat < 65536 * 2 ^ u.cfg.memsize.toNat ∧
     (∀ e, (u.mb.entry e).state = .free) ∧ u.mb.waiting ++ u.mb.held = [] ∧ u.wlt = [] ∧ u.aif.access = none ∧
     u.sp0.burst = none ∧ u.sp1.burst = none) ∧
    (let u := (filling 0#20 0x10000#20 running).eventStart
     u.ctl.state = .running ∧ ¬ u.sce.regFillLast.toNat < 65536 * 2 ^ u.cfg.memsize.toNat) ∧
    (let u := (filling 0#20 0xFFFF#20 (withEntry 0 (entryIn .faulted 0xFFFF#20 1#4) running)).eventStart
     (u.mb.entry 0).state ≠ .free ∧ (u.mb.entry 0).addr.toNat ≤ u.sce.regFillLast.toNat) ∧
    State.reset.eventStart.ctl.state ≠ .running := by decide +kernel

/-- A log of `n` records. -/
def logged (n : Nat) : State :=
  (List.range n).foldl (fun s _ => s.logRecord (ErrorRecord.base .corrected .pp 1#20)) .reset

theorem witness_LogPop :
    State.reset.eventStart.elog.records = [] ∧ (logged 8).eventStart.elog.records.length = 8 ∧
    (logged 8).resetAsserted = false := by decide +kernel

theorem witness_LogClearOverflow : (logged 8).elog.records.length = 8 := by decide +kernel

theorem witness_CommandResults : 0x00#8 ∉ commandCodes ∧ 0x2B#8 ∉ commandCodes ∧ 0x2A#8 ∈ commandCodes := by decide

/-- A header frame of SP0: operation, length, with the parity bit given. -/
def headerFrame (op len parity : Nat) : Frame :=
  BitVec.ofNat 48 (1 + 0x100 * 2 ^ 4 + (len - 1) * 2 ^ 28 + op * 2 ^ 32 + parity * 2 ^ 35)

/-- The link of SP0 holds a frame. -/
def onLink (f : Frame) (s : State) : State := s.setSp .sp0 { s.sp0 with inbound := [f] }

/-- A burst whose second beat waits behind the merge write of its first. -/
def blockedWriter : State :=
  let s := busy (head .write 3 1#4) .merge (allEntries .reading .reset)
  onLink (frame 2 1 0xF) (s.setMb { s.mb with waiting := [merge .sp0 15#4] })

theorem witness_HeaderArrival :
    (frameType (headerFrame 0 1 0) = 1#4 ∧ (blockedWriter.eventStart.sp .sp0).inbound ≠ []) ∧
    ((State.reset.eventStart.sp .sp0).inbound = [] ∧ (State.reset.eventStart.sp .sp0).state = .disabled) ∧
    (let u := (port .suspended [] 4 none .reset).eventStart
     (u.sp .sp0).inbound = [] ∧ (u.sp .sp0).state = .suspended) ∧
    HeaderFails 0 (headerFrame 0 1 0) .credit ∧ HeaderFails 1 (headerFrame 0 1 1) .parity ∧
    HeaderFails 1 (headerFrame 7 1 1) .opcode ∧ HeaderFails 1 (headerFrame 2 2 0) .length ∧
    (¬ HeaderFails 1 (headerFrame 0 1 0) .credit ∧ ¬ HeaderFails 1 (headerFrame 0 1 0) .parity ∧
     ¬ HeaderFails 1 (headerFrame 0 1 0) .opcode ∧ ¬ HeaderFails 1 (headerFrame 0 1 0) .length ∧
     ¬ HeaderFails 1 (headerFrame 0 1 0) .timeout) := by
  unfold HeaderFails
  decide +kernel

theorem witness_WriteBeatArrival :
    frameType (frame 2 1 0xF) = 2#4 ∧ (blockedWriter.eventStart.sp .sp0).inbound ≠ [] ∧
    (State.reset.eventStart.sp .sp0).burst = none ∧
    (let u := (busy (head .write 2 1#4) .beatWait .reset).eventStart
     (u.sp .sp0).burst = some (burst (head .write 2 1#4) .beatWait) ∧ u.fenced 0x100#20 = false) ∧
    (let u := (busy (head .write 2 1#4) .beatWait
        (flying .writing (access .write .sc (some 0#32))
          ((scrub .fillAccess .reset).setSce { (scrub .fillAccess .reset).sce with fillLast := 0x100#20 }))).eventStart
     (u.sp .sp0).burst = some (burst (head .write 2 1#4) .beatWait) ∧ u.fenced 0x100#20 = true) ∧
    (let s := busy (head .write 2 1#4) .merge (allEntries .reading .reset)
     let u := (s.setMb { s.mb with waiting := [merge .sp0 15#4] }).eventStart
     (u.sp .sp0).burst = some (burst (head .write 2 1#4) .merge) ∧ (u.sp .sp0).inbound = []) ∧
    (let u := (busy (head (.atomic .compareSwap) 1 1#4) .operandWait .reset).eventStart
     (u.sp .sp0).burst = some (burst (head (.atomic .compareSwap) 1 1#4) .operandWait) ∧ u.hasLock .sp0 = false) ∧
    (let u := ((busy (head (.atomic .swap) 1 1#4) .operandWait
        (flying .pairedRead (access .paired .ae none) .reset)).setWlt [lock .sp0 .inArray]).eventStart
     (u.sp .sp0).burst = some (burst (head (.atomic .swap) 1 1#4) .operandWait) ∧ u.hasLock .sp0 = true) := by
  decide +kernel

theorem witness_FramesOnTheLink :
    (let s := onLink (frame 2 1 0xF) (busy (head .write 3 1#4) .beatWait .reset)
     Ready s ∧ (s.sp .sp0).inbound = frame 2 1 0xF :: [] ∧ s.canTake .sp0 (frame 2 1 0xF) = true ∧
     s.due = [.linkTake .sp0]) ∧
    (Ready blockedWriter ∧ blockedWriter.canTake .sp0 (frame 2 1 0xF) = false ∧
     .linkTake .sp0 ∉ blockedWriter.due) ∧
    (let b := burst (head (.atomic .compareSwap) 1 1#4) .operandWait
     let s := (port .enabled [b.hdr] 3 (some b) .reset).setWlt [{ lock .sp0 .inArray with addr := 0x200#20 }]
     let s := s.setSp .sp0 { s.sp0 with inbound := [frame 2 1 0xF, frame 2 1 0xF] }
     let t := s.fire (.linkTake .sp0)
     Ready s ∧ s.canTake .sp0 (frame 2 1 0xF) = true ∧ t.sp0.inbound = [frame 2 1 0xF] ∧
     t.canTake .sp0 (frame 2 1 0xF) = false ∧ t.sp0.burst.map (·.phase) = some .operandBlocked) := by
  unfold Ready
  decide +kernel

theorem witness_AbortAndDiscardedFrames :
    frameType (frame 3 1 0) = 3#4 ∧ beatTag (frame 3 1 0) = 1#4 ∧ (blockedWriter.eventStart.sp .sp0).inbound ≠ [] ∧
    (∀ ph ∈ [BurstPhase.readAccess, .merge, .locked, .beatWait],
      let u := (busy (head .write 2 1#4) ph .reset).eventStart
      (u.sp .sp0).inbound = [] ∧ (u.sp .sp0).burst = some (burst (head .write 2 1#4) ph)) ∧
    (let u := (port .enabled [head .read 1 1#4, head .read 2 2#4, head .read 3 2#4] 1 none .reset).eventStart
     (u.sp .sp0).burst = none ∧ (u.sp .sp0).srq = [head .read 1 1#4] ++ head .read 2 2#4 :: [head .read 3 2#4] ∧
     ∀ h ∈ (u.sp .sp0).srq, h.tag ≠ 3#4) ∧
    frameType (frame 0 0 0) = 0#4 ∧ 4#4 ≤ frameType (frame 4 0 0) ∧ 4#4 ≤ frameType (frame 15 0 0) := by decide +kernel

theorem witness_LockCancelled :
    let free := (busy (head (.atomic .swap) 1 1#4) .locked .reset)
    (free.eventStart.wlt.find? (·.port == SpId.sp0.port) = none) ∧
    (let u := (flying .pairedRead (access .paired .ae none) (free.setWlt [lock .sp0 .inArray])).eventStart
     u.wlt.find? (·.port == SpId.sp0.port) = some (lock .sp0 .inArray)) ∧
    (∀ st ∈ [EntryState.pending, .faulted],
      let e := lock .sp0 .waitDrain
      let u := (withEntry 3 (entryIn st 0x100#20 1#4) free).setWlt [e, lock .pp .waitTurn]
      u.wlt.find? (·.port == SpId.sp0.port) = some e ∧
      u.wlt.filter (·.port != SpId.sp0.port) = [] ++ lock .pp .waitTurn :: [] ∧
      (u.mbAsk 0x100#20 = .faulted ↔ st = .faulted)) := by decide +kernel

/-- Protection on, with descriptor 0 over block 4 (words 100h to 13Fh), readable by PP and SP0. -/
def guarded : State :=
  let s := State.reset.setCfg { State.reset.cfg with protect := true }
  s.setAcu { s.acu with regions := s.acu.regions.set 0 (.ofStaged 4#14 4#14 0x8011#16) }

theorem witness_AccessVerdicts :
    State.reset.ppVerdict (request .flush) = .pass ∧
    State.reset.ppVerdict { request .read with addr := 3#22 } = .fault .alignFault 0#20 ∧
    State.reset.ppVerdict { request .read with size := .half, addr := 0x3FFFFF#22 } = .fault .alignFault 0xFFFFF#20 ∧
    State.reset.ppVerdict { request .read with addr := 0x40000#22 } = .fault .addressFault 0x10000#20 ∧
    State.reset.ppVerdict { request .read with addr := 0x3FFFC#22 } = .pass ∧
    guarded.ppVerdict (request .read) = .pass ∧ guarded.ppVerdict (request .write) = .fault .regionFault 0x100#20 ∧
    State.reset.streamVerdict .sp0 { head .read 16 0#4 with addr := 0xFFF1#20 } = .fault .addressFault 0xFFF1#20 ∧
    State.reset.streamVerdict .sp0 { head .read 16 0#4 with addr := 0xFFF0#20 } = .pass ∧
    guarded.streamVerdict .sp0 (head .read 16 0#4) = .pass ∧
    guarded.streamVerdict .sp0 { head .read 2 0#4 with addr := 0x13F#20 } = .fault .regionFault 0x140#20 := by decide +kernel

/-- RUNNING with a request at the PRQ's head. -/
def prq (r : PpRequest) (s : State) : State := s.setPpt { s.ppt with prq := [r] }

theorem witness_PrqDispatch :
    Ready (prq (request .read) running) ∧ (prq (request .read) running).ppt.exec = none ∧
    (prq (request .read) running).ppt.cq.length < 8 ∧
    (prq (request .read) running).ppVerdict (request .read) = .pass ∧
    (prq (request .read) running).fenced 0x100#20 = false ∧
    (ctlIs .running guarded).ppVerdict (request .write) = .fault .regionFault 0x100#20 ∧
    (let s := scrub .fillRequest running
     (s.setSce { s.sce with fillLast := 0x100#20 }).fenced 0x100#20 = true) ∧
    (let s := prq (request .flush) (withEntry 0 (entryIn .pending 1#20 1#4) (withEntry 1 (entryIn .writing 2#20 1#4) running))
     Ready s ∧ s.ppVerdict (request .flush) = .pass ∧ (s.mb.entry 0).state = .pending ∧ (s.mb.entry 1).state = .writing ∧
     (s.mb.entry 2).state = .free) ∧
    (prq (request .read) .reset).ctl.state ≠ .running ∧ (prq (request .read) (ctlIs .quiescing .reset)).ctl.state ≠ .running ∧
    (executing .read .readWait running).ppt.exec ≠ none ∧ running.ppt.prq = [] := by
  unfold Ready
  decide +kernel

theorem witness_ProcessorRequestGoesOn :
    (let s := executing .read .fenceHold running
     s.ppt.exec.isSome = true ∧ s.locked 0x100#20 = false ∧ s.mbLookup 0x100#20 15#4 = none ∧
     (s.setWlt [lock .sp0 .waitGrant]).locked 0x100#20 = true ∧
     (withEntry 0 (entryIn .pending 0x100#20 15#4) s).mbLookup 0x100#20 15#4 = some 0xDDCCBBAA#32 ∧
     (withEntry 0 (entryIn .pending 0x100#20 3#4) s).mbLookup 0x100#20 3#4 = some 0xDDCCBBAA#32 ∧
     (withEntry 0 (entryIn .pending 0x100#20 3#4) s).mbLookup 0x100#20 15#4 = none) ∧
    (executing (.atomic .swap) .fenceHold running).hasLock .pp = false ∧
    (request .write).op = .write ∧ (2#22 : ByteAddr).toNat % 4 = 2 := by decide +kernel

theorem witness_SrqDispatch :
    (∀ op ∈ [StreamOp.read, .write, .atomic .swap],
      let s := port .enabled [head op 1 1#4] 3 none running
      Ready s ∧ s.ctl.state = .running ∧ (s.sp .sp0).state = .enabled ∧ (s.sp .sp0).burst = none ∧
      (s.sp .sp0).srq = [head op 1 1#4] ∧ s.streamVerdict .sp0 (head op 1 1#4) = .pass) ∧
    (let s := port .enabled [head .write 1 1#4] 3 none (ctlIs .running guarded)
     Ready s ∧ s.streamVerdict .sp0 (head .write 1 1#4) = .fault .regionFault 0x100#20 ∧
     (s.sp .sp0).suspendOnFault = false ∧
     ((s.setSp .sp0 { s.sp .sp0 with suspendOnFault := true }).sp .sp0).suspendOnFault = true) ∧
    (∀ c ∈ [CtrlState.halted, .quiescing], (port .enabled [head .read 1 1#4] 3 none (ctlIs c .reset)).ctl.state ≠ .running) ∧
    (running.sp .sp0).state ≠ .enabled ∧ ((busy (head .read 1 1#4) .readHold running).sp .sp0).burst ≠ none := by
  unfold Ready
  decide +kernel

theorem witness_StreamWordTakenUp :
    let s := busy (head .read 1 1#4) .readHold running
    (s.sp .sp0).burst = some (burst (head .read 1 1#4) .readHold) ∧ s.fenced 0x100#20 = false ∧ s.locked 0x100#20 = false ∧
    s.mbLookup 0x100#20 15#4 = none ∧ (s.sp .sp0).discardedRead = none ∧
    (withEntry 0 (entryIn .pending 0x100#20 15#4) s).mbLookup 0x100#20 15#4 = some 0xDDCCBBAA#32 ∧
    (s.setWlt [lock .pp .waitGrant]).locked 0x100#20 = true ∧
    ((scrub .fillRequest s).setSce { (scrub .fillRequest s).sce with fillLast := 0x100#20 }).fenced 0x100#20 = true ∧
    (let t := onLink (frame 2 1 0xF) (busy (head (.atomic .swap) 1 1#4) .admitHold running)
     (t.sp .sp0).inbound = [frame 2 1 0xF] ∧ frameType (frame 2 1 0xF) = 2#4 ∧ beatTag (frame 2 1 0xF) = 1#4 ∧
     (t.setWlt [{ lock .sp0 .inArray with addr := 0x200#20 }]).hasLock .sp0 = true ∧
     (t.setWlt [{ lock .sp0 .inArray with addr := 0x200#20 }]).locked 0x100#20 = false) := by
  decide +kernel

theorem witness_ArrayGrant :
    (let s := asking .pp .read (executing .read .readWait running)
     s.aif.state = .idle ∧ s.own.backToIdle = false ∧ s.winner = some (.pp, true) ∧
     s.arb.slots.get .pp = some { kind := .read, addr := some 0x100#20 }) ∧
    (let s := asking .sp0 .read (busy (head .read 1 1#4) .readWait running)
     s.winner = some (.sp0, true)) ∧
    (∀ x ∈ [(DrainPhase.readWait, EntryState.pending), (.writeWait, .pending), (.resolveWait, .faulted)],
      let s := asking .dr .write (drainIs x.1 0 (withEntry 0 (entryIn x.2 0x100#20 15#4) running))
      s.winner = some (.dr, true) ∧ s.mb.drain.entry = some 0) ∧
    (let s := (asking .ae .paired running).setWlt [lock .pp .waitDrain, lock .sp0 .waitGrant]
     s.winner = some (.ae, true)) ∧
    (asking .sc .paired (scrub .patrolRequest running)).winner = some (.sc, false) ∧
    (asking .sc .write (scrub .fillRequest running)).winner = some (.sc, true) ∧
    (let s := asking .dr .write (drainIs .writeWait 0 (withEntry 0 (entryIn .pending 0x100#20 15#4)
        (running.setCfg { running.cfg with hwm := 1#4 })))
     s.winner = some (.dr, false)) ∧
    (let s := asking .sc .paired (asking .pp .read (scrub .patrolRequest running))
     (s.setArb { s.arb with bypass := 16 }).winner = some (.sc, false) ∧
     (s.setArb { s.arb with bypass := 15 }).winner = some (.pp, true)) ∧
    State.reset.winner = none ∧ (flying .reading (access .read .pp none) running).aif.state ≠ .idle ∧
    (ctlIs .quiescing .reset).ctl.state = .quiescing ∧ (ctlIs .quiescing .reset).quiesceReady = true ∧
    (let s := executing (.atomic .swap) .lockReleased (asking .sp0 .read running)
     (s.setOwn { s.own with backToIdle := true }).dueWork ≠ []) := by decide +kernel

theorem witness_DrainEngineStarts :
    (let s := withEntry 1 { entryIn .pending 2#20 15#4 with forced := true } (withEntry 0 (entryIn .pending 1#20 1#4) running)
     Ready s ∧ s.mb.drain.phase = .idle ∧ s.mb.resolveChoice = none ∧ s.ctl.state ≠ .halted ∧
     (s.mb.entry 0).state = .pending ∧ s.mb.drainChoice = some 1 ∧ s.mb.age = [0] ++ 1 :: [] ∧
     (s.mb.entry 1).rank < (s.mb.entry 0).rank ∧ (s.mb.entry 1).mask = 0b1111#4) ∧
    (let s := withEntry 1 (entryIn .pending 2#20 1#4) (withEntry 0 (entryIn .pending 1#20 1#4)
        (running.setCfg { running.cfg with lwm := 3#4 }))
     s.mb.count (fun f => f.state == .pending) + 1 = s.cfg.lwm.toNat ∧ s.mb.count Entry.live < s.cfg.hwm.toNat ∧
     s.mb.waiting = [] ∧ (∀ e, (s.mb.entry e).forced = false) ∧ (∀ e, (s.mb.entry e).flushBound = false) ∧
     s.ctl.state ≠ .quiescing ∧ after .drainStart s = s ∧
     (after .drainStart (s.setCfg { s.cfg with lwm := 2#4 })).mb.drain.phase = .readWait) ∧
    (let s := withEntry 0 (entryIn .pending 1#20 1#4) running
     Ready s ∧ s.mb.drainChoice = some 0 ∧ (s.mb.entry 0).mask ≠ 0b1111#4 ∧
     s.cfg.lwm.toNat ≤ s.mb.count (fun f => f.state == .pending)) ∧
    (Ready forced7 ∧ forced7.mb.drain.phase = .idle ∧ forced7.mb.age = [] ++ 7 :: [] ∧
     (forced7.mb.entry 7).state = .faulted ∧ (forced7.mb.entry 7).resolvePending = true) ∧
    State.reset.ctl.state = .halted ∧ forced7.mb.resolveChoice = some 7 ∧ running.mb.resolveChoice = none ∧
    (∀ e, (running.mb.entry e).state ≠ .pending) ∧ (drainIs .readWait 0 running).mb.drain.phase ≠ .idle := by
  unfold Ready
  decide +kernel

/-- A merge write of a port held at the buffer. -/
def heldMerge (q : Port) (s : State) : State := s.setMb { s.mb with held := [merge q 15#4] }

theorem witness_HoldReleases :
    (let s := heldMerge .sp0 running
     s.mb.held = [] ++ merge .sp0 15#4 :: [] ∧ s.locked 0x100#20 = false) ∧
    (let s := executing .read .lockHold running
     s.ppt.exec.isSome = true ∧ s.mb.held = [] ∧ s.locked 0x100#20 = false) ∧
    ((executing (.atomic .swap) .lockHold running).hasLock .pp = false ∧ wordOf (request (.atomic .swap)).addr = 0x100#20) ∧
    (let s := (executing .read .lockHold (heldMerge .sp0 running)).setWlt [lock .sp1 .waitGrant]
     s.locked 0x100#20 = true ∧ s.mb.held = [merge .sp0 15#4] ∧ after (.lockHoldRelease .pp) s = s ∧
     after (.lockHoldRelease .sp0) s = s) ∧
    (let s := executing .read .fenceHold (port .enabled [head .read 1 1#4] 3
        (some { burst (head .read 1 1#4) .readHold with hold := .fence }) (scrub .fillRequest running))
     let s := s.setSce { s.sce with fillLast := 0x100#20 }
     s.fenced 0x100#20 = true ∧ after (.fenceHoldRelease .pp) s = s ∧ after (.fenceHoldRelease .sp0) s = s) ∧
    (let s := executing (.atomic .swap) .lockReleased (running.setWlt [lock .sp0 .waitGrant])
     s.ppt.exec = some { req := request (.atomic .swap), phase := .lockReleased } ∧ s.mb.held = [] ∧
     s.hasLock .pp = false ∧ s.locked 0x100#20 = true) ∧
    (let s := port .enabled [head .read 1 1#4] 3 (some { burst (head .read 1 1#4) .readHold with hold := .lock }) running
     (s.sp .sp0).burst.isSome = true ∧ s.locked 0x100#20 = false) ∧
    running.nextWaiter = none ∧ running.fenced 0x100#20 = false ∧
    (executing .read .fenceHold running).ppFenceReleasable = true ∧
    (port .enabled [head .write 1 1#4] 3
      (some { burst (head .write 1 1#4) .merge with hold := .fence, beat := some (1#32, 15#4) }) running).spFenceReleasable
        .sp0 = true := by decide +kernel

theorem witness_WaitersAndSignals :
    (let s := running.setMb { running.mb with waiting := [] ++ merge .sp0 15#4 :: [] }
     s.locked 0x100#20 = false ∧ (s.mb.entry 0).state = .free) ∧
    (let s := running.setWlt ([] ++ lock .pp .waitDrain :: [])
     Ready s ∧ ∀ i, (s.mb.entry i).state = .free) ∧
    (let s := (withEntry 0 (entryIn .faulted 0x100#20 1#4) running).setWlt ([] ++ lock .pp .waitDrain :: [])
     Ready s ∧ s.mbAsk 0x100#20 = .faulted) := by
  unfold Ready
  decide +kernel

theorem witness_FlushAndQuiesceComplete :
    (let s := executing .flush .flushing running
     Ready s ∧ s.ppt.exec = some { req := request .flush, phase := .flushing } ∧
     ∀ e, (s.mb.entry e).flushBound = false) ∧
    (let s := ctlIs .quiescing .reset
     s.resetAsserted = false ∧ s.ctl.state = .quiescing ∧ QuiesceHolds s) ∧
    (let s := withEntry 0 { entryIn .pending 1#20 1#4 with flushBound := true } (executing .flush .flushing running)
     (s.mb.entry 0).flushBound = true ∧ after .flushCompletion s = s) ∧
    (let s := withEntry 0 (entryIn .pending 1#20 1#4) (ctlIs .quiescing .reset)
     ¬ QuiesceHolds s ∧ after .quiesceComplete s = s) := by
  unfold Ready QuiesceHolds
  decide +kernel

theorem witness_PpReadCompletion :
    (let u := (flying .reading (access .read .pp none) (executing .read .readAccess running)).eventStart
     u.aif = { state := .reading, access := some (access .read .pp none) } ∧ (access .read .pp none).requester = .pp ∧
     u.ppt.exec = some { req := request .read, phase := .readAccess }) ∧
    (∀ e, (State.reset.mb.entry e).state = .free) ∧
    (let s := withEntry 2 (entryIn .pending 0x100#20 3#4) .reset
     (s.mb.entry 2).state ≠ .free ∧ (s.mb.entry 2).addr = 0x100#20 ∧
     (∀ f, (s.mb.entry f).state ≠ .free → (s.mb.entry f).addr = 0x100#20 → f = 2) ∧
     (s.mb.entry 2).mask &&& 3#4 = 3#4 ∧ (s.mb.entry 2).mask &&& 15#4 ≠ 15#4) := by decide +kernel

/-- SP0's read of word 100h in flight. -/
def reading (b : Burst) (flips : Bits39) : State :=
  flying .reading (access .read .sp0 none) (stored 1#32 flips (port .enabled [b.hdr] 3 (some b) running))

theorem witness_StreamReadCompletion :
    (∀ x ∈ [(1, false, 0#39), (2, false, 1#39), (2, true, 0#39), (2, false, 3#39)],
      let b := { burst (head .read x.1 1#4) .readAccess with aborted := x.2.1 }
      let u := (reading b x.2.2).eventStart
      u.aif = { state := .reading, access := some (access .read .sp0 none) } ∧ (u.sp .sp0).discardedRead = none ∧
      (u.sp .sp0).burst = some b ∧
      ((u.mbOverlay 0x100#20 15#4 (u.readArray 0x100#20)).2 = .uncorrectable ↔ x.2.2 = 3#39)) ∧
    (let b := burst (head .read 1 1#4) .readWait
     let s := reading b 0#39
     let u := (s.setSp .sp0 { s.sp0 with discardedRead := some 9#4 }).eventStart
     (u.sp .sp0).discardedRead = some 9#4 ∧ (u.sp .sp0).burst = some b ∧ u.arb.slots.get .sp0 = none ∧
     (s.sp .sp1).burst = none) := by decide +kernel

/-- The drain engine's access of word 100h for entry 0. -/
def draining (st : AifState) (ph : DrainPhase) (x : Entry) (d : Option Word) (flips : Bits39) : State :=
  flying st (access .read .dr d) (stored 1#32 flips (drainIs ph 0 (withEntry 0 x running)))

theorem witness_DrainReadCompletion :
    (let u := (draining .reading .readAccess (entryIn .reading 0x100#20 15#4) none 0#39).eventStart
     u.aif.state = .reading ∧ u.aif.access = some (access .read .dr none) ∧ u.mb.drain.entry = some 0 ∧
     (u.mb.entry 0).mask = 15#4) ∧
    (let u := (draining .reading .readAccess (entryIn .reading 0x100#20 1#4) none 3#39).eventStart
     u.aif.state = .reading ∧ u.mb.drain.entry = some 0 ∧ (u.mb.entry 0).mask = 1#4) := by decide +kernel

/-- What the drain read above meets: CLEAN, CORRECTED or UNCORRECTABLE. -/
theorem witness_DrainReadOutcome :
    ((stored 1#32 0#39 running).readArray 0x100#20).2 = .clean ∧
    ((stored 1#32 1#39 running).readArray 0x100#20).2 = .corrected 1#7 ∧
    ((stored 1#32 3#39 running).readArray 0x100#20).2 = .uncorrectable := by decide +kernel

theorem witness_DrainWriteCompletion :
    ∀ r ∈ [true, false],
      let u := (draining .writing .writeAccess { entryIn .writing 0x100#20 15#4 with reopened := r } (some 5#32) 0#39).eventStart
      u.aif.state = .writing ∧ u.mb.drain.entry = some 0 ∧ (u.mb.entry 0).reopened = r ∧
      (access .read .dr (some 5#32)).writeData = some 5#32 := by decide +kernel

/-- The paired access of SP0's lock entry. -/
def paired (st : AifState) (e : LockEntry) (d : Option Word) (flips : Bits39) : State :=
  (flying st (access .paired .ae d) (stored 1#32 flips running)).setWlt [e]

theorem witness_AtomicCompletions :
    (∀ x ∈ [(AtomicOp.swap, 0#39), (.swap, 3#39), (.compareSwap, 0#39)],
      let e := { lock .sp0 .inArray with op := x.1, opB := some 2#32 }
      let u := (paired .pairedRead e none x.2).eventStart
      u.aif.state = .pairedRead ∧ u.wlt = [] ++ e :: [] ∧ e.state = .inArray ∧
      ((u.readArray 0x100#20).2 = .uncorrectable ↔ x.2 = 3#39) ∧
      ((e.op.newValue e.opA e.opB 1#32).isNone = true ↔ x.1 = .compareSwap)) ∧
    (let u := (paired .pairedWrite (lock .sp0 .inArray) (some 7#32) 0#39).eventStart
     u.aif.state = .pairedWrite ∧ (access .paired .ae (some 7#32)).outcome = some .clean) := by decide +kernel

/-- The scrub engine's access of word 100h. -/
def scrubbing (ast : AifState) (st : ScrubState) (d : Option Word) (flips : Bits39) (s : State) : State :=
  flying ast (access .paired .sc d) (stored 1#32 flips (scrub st s))

theorem witness_PatrolCompletions :
    (let u := (scrubbing .pairedRead .patrolAccess none 1#39 running).eventStart
     u.aif.state = .pairedRead ∧ u.aif.access = some (access .paired .sc none) ∧
     ∀ e, (u.mb.entry e).state = .free) ∧
    (let u := (scrubbing .pairedWrite .patrolAccess (some 1#32) 0#39 running).eventStart
     u.aif.state = .pairedWrite ∧ u.aif.access = some (access .paired .sc (some 1#32))) := by decide +kernel

/-- A fill write of word 100h, not the last one. -/
def midFill (stop : Bool) : State :=
  let s := scrubbing .writing .fillAccess (some 1#32) 0#39 running
  s.setSce { s.sce with fillLast := 1#20, stopPending := stop }

theorem witness_FillCompletions :
    (let u := (scrubbing .writing .fillAccess (some 1#32) 0#39 running).eventStart
     u.aif.state = .writing ∧ u.sce.fillPtr = u.sce.fillLast) ∧
    (let u := (midFill true).eventStart
     u.aif.state = .writing ∧ u.sce.fillPtr ≠ u.sce.fillLast ∧ u.sce.stopPending = true) ∧
    (let u := (midFill false).eventStart
     u.aif.state = .writing ∧ u.sce.fillPtr ≠ u.sce.fillLast ∧ u.sce.stopPending = false) := by decide +kernel

theorem witness_DisturbanceAndDecode :
    (stored 1#32 0#39 .reset).wordAt 0x100#20 = { base := .written 1#32, flips := 0#39 } ∧
    (stored 1#32 (1#39 <<< 38) .reset).wordAt 0x100#20 = { base := .written 1#32, flips := 1#39 <<< 38 } ∧
    (stored 1#32 (1#39 <<< 0 ||| 1#39 <<< 38) .reset).wordAt 0x100#20 =
      { base := .written 1#32, flips := 1#39 <<< 0 ||| 1#39 <<< 38 } ∧
    (stored 1#32 0#39 .reset).array.wf = true := by decide +kernel

theorem witness_MergeWriteOutcome :
    ((State.reset.setWlt [lock .pp .waitGrant]).locked 0x100#20 = true ∧ State.reset.locked 0x100#20 = false) ∧
    (let s := withEntry 0 (entryIn .faulted 0x100#20 1#4) .reset
     (s.mb.entry 0).state = .faulted ∧ ∀ f, (s.mb.entry f).state ≠ .free → (s.mb.entry f).addr = 0x100#20 → f = 0) ∧
    (let s := drainIs .readWait 0 (withEntry 0 (entryIn .pending 0x100#20 1#4) .reset)
     (s.mb.entry 0).state ≠ .faulted ∧ s.mb.drain = { phase := .readWait, entry := some 0 } ∧
     (s.mb.entry 0).mask ||| 14#4 = 15#4 ∧ (s.mb.entry 0).mask ||| 6#4 ≠ 15#4) ∧
    ((State.reset.mb.entry 0).state = .free ∧ ∀ f : Fin 8, f < 0 → (State.reset.mb.entry f).state ≠ .free) ∧
    (∀ e, ((allEntries .faulted .reset).mb.entry e).state = .faulted ∧
      ((allEntries .faulted .reset).mb.entry e).addr ≠ 0x100#20) ∧
    (∀ e, ((allEntries .pending .reset).mb.entry e).state ≠ .free) ∧
    (executing .write .merge .reset).ppt.exec.isSome = true ∧
    ((busy (head .write 1 1#4) .merge .reset).sp .sp0).burst = some (burst (head .write 1 1#4) .merge) ∧
    ((busy (head .write 2 1#4) .merge .reset).sp .sp0).burst = some (burst (head .write 2 1#4) .merge) := by decide +kernel

theorem witness_LockCreationAndRemoval :
    (State.reset.setWlt [lock .pp .inArray]).hasLock .pp = true ∧
    (let s := State.reset.setWlt [lock .pp .inArray]
     s.hasLock .sp0 = false ∧ s.wlt = [] ++ lock .pp .inArray :: [] ∧ (lock .pp .inArray).state ≠ .waitTurn) ∧
    (State.reset.wlt = [] ∧ State.reset.mbAsk 0x100#20 = .none) ∧
    (withEntry 3 (entryIn .reading 0x100#20 1#4) .reset).mbAsk 0x100#20 = .forced 3 ∧
    (let s := executing (.atomic .swap) .locked (withEntry 3 (entryIn .faulted 0x100#20 1#4) .reset)
     s.mbAsk 0x100#20 = .faulted ∧ s.ppt.exec.isSome = true ∧ (lock .pp .waitTurn).cancelled = false) ∧
    (let s := State.reset.setWlt [lock .pp .inArray, lock .sp0 .waitTurn]
     s.wlt.filter (·.port != Port.pp) = [] ++ lock .sp0 .waitTurn :: [] ∧ s.mbAsk 0x100#20 = .none ∧
     (withEntry 3 (entryIn .pending 0x100#20 1#4) s).mbAsk 0x100#20 = .forced 3 ∧
     (withEntry 3 (entryIn .faulted 0x100#20 1#4) s).mbAsk 0x100#20 = .faulted) ∧
    (State.reset.setWlt [lock .pp .inArray]).wlt.filter (·.port != Port.pp) = [] ∧
    { lock .sp0 .inArray with cancelled := true }.cancelled = true ∧
    ((busy (head (.atomic .swap) 1 1#4) .locked .reset).sp .sp0).burst =
      some (burst (head (.atomic .swap) 1 1#4) .locked) := by decide +kernel

theorem witness_LogAndCounts :
    (logged 7).elog.records.length < 8 ∧
    ((logged 8).elog.records.length = 8 ∧ (logged 8).elog.records.head?.map (·.seq) = some 0#16 ∧
     (logged 8).elog.seq ≠ 0#16) ∧
    ((logged 8).setElog { (logged 8).elog with seq := 0#16 }).elog.seq = 0#16 := by decide +kernel

/-- A step from a state that keeps each law. -/
theorem witness_Kept :
    InvArray running ∧ InvQueues running ∧ InvPorts running ∧ InvHalted running ∧ InvSequence running ∧ InvLocks running ∧
    InvSettings running ∧ InvBypass running ∧ ∃ t, step running = .next t := by
  refine ⟨?_, ?_, ?_, ?_, ?_, ?_, ?_, ?_, step_next running⟩
  · unfold InvArray; decide +kernel
  · unfold InvQueues; decide +kernel
  · refine ⟨⟨?_, ?_⟩, ⟨?_, ?_⟩⟩ <;> simp [running, ctlIs, State.reset, StreamPort.default]
  · refine ⟨fun _ => rfl, fun h => ?_⟩
    simp [running, ctlIs] at h
  · trivial
  · unfold InvLocks; decide +kernel
  · unfold InvSettings; decide +kernel
  · unfold InvBypass; decide +kernel

theorem witness_BufferLawsKept : InvBuffer running := by
  refine ⟨?_, ?_, ?_, ?_⟩
  · decide +kernel
  · decide +kernel
  · decide +kernel
  · rfl

end Sys2Proof.Tests
end

section
/-! The configuration writes of the register window: when one is taken, and CFG_MEMSIZE_WRITE (R5, R6, R108). -/

namespace Sys2Proof.Machine

/-! ### What a configuration write does (R108) -/

/-- A legal configuration write in HALTED acts. -/
theorem State.cfgWrite_of_halted {s : State} {legal : Bool} (hs : s.ctl.state = .halted) (hl : legal = true)
    (f : State → State) : s.cfgWrite legal f = f s :=
  if_pos ⟨hs, hl⟩

/-- Outside HALTED, or not legal, a configuration write sets CONFIG_REFUSED and does nothing else. -/
theorem State.cfgWrite_of_refused {s : State} {legal : Bool} (h : ¬ (s.ctl.state = .halted ∧ legal = true))
    (f : State → State) : s.cfgWrite legal f = s.setCtl { s.ctl with configRefused := true } :=
  if_neg h

/-! ### CFG_MEMSIZE (R5, R6) -/

theorem MergeBuffer.allFree_iff {mb : MergeBuffer} : mb.allFree = true ↔ ∀ e, (mb.entry e).state = .free := by
  simp [MergeBuffer.allFree, MergeBuffer.anyEntry_eq_false, Entry.active]

/-- The test that CFG_MEMSIZE makes besides HALTED, in the words of R5. -/
theorem memsizeLegal_iff {code : BitVec 3} {mb : MergeBuffer} :
    (decide (code ≤ 4#3) && mb.allFree) = true ↔ code.toNat ≤ 4 ∧ ∀ e, (mb.entry e).state = .free := by
  simp [MergeBuffer.allFree_iff, BitVec.le_def]

/-- The patrol pointer moves to 0 when it is not below the new size, and else stays (R6). -/
theorem State.writeMemsize_of_taken {s : State} {v : Reg16} (hs : s.ctl.state = .halted)
    (hc : (v.extractLsb' 0 3).toNat ≤ 4) (hf : ∀ e, (s.mb.entry e).state = .free) :
    s.writeMemsize v =
      { s with
        cfg := { s.cfg with memsize := v.extractLsb' 0 3 }
        sce := { s.sce with
          patrolPtr :=
            if 65536 * 2 ^ (v.extractLsb' 0 3).toNat ≤ s.sce.patrolPtr.toNat then 0#20 else s.sce.patrolPtr } } := by
  rw [State.writeMemsize, State.cfgWrite_of_halted hs (memsizeLegal_iff.mpr ⟨hc, hf⟩)]
  by_cases hptr : 65536 * 2 ^ (v.extractLsb' 0 3).toNat ≤ s.sce.patrolPtr.toNat
  · rw [if_pos hptr]
    exact if_pos hptr
  · rw [if_neg hptr]
    exact if_neg hptr

theorem State.writeMemsize_of_refused {s : State} {v : Reg16}
    (h : ¬ (s.ctl.state = .halted ∧ (v.extractLsb' 0 3).toNat ≤ 4 ∧ ∀ e, (s.mb.entry e).state = .free)) :
    s.writeMemsize v = s.setCtl { s.ctl with configRefused := true } := by
  rw [State.writeMemsize, State.cfgWrite_of_refused (mt (And.imp_right memsizeLegal_iff.mp) h)]

/-- A taken CFG_MEMSIZE_WRITE is the write of the register at the event's start. -/
theorem exec_cfgMemsizeWrite_of_taken {s : State} {b : Bus} (h : Taken s b) (v : Reg16) :
    exec (.cfgMemsizeWrite b v) s = .next ((s.eventStartBy b.together).writeMemsize v) :=
  congrArg Host.Outcome.next (State.busWrite_of_taken h (State.writeMemsize v))

/-- Settles O12, by whether R5's three conditions hold at the event's start. -/
theorem cfgMemsizeWrite : Obligations.CfgMemsizeWrite := by
  intro s b v htaken
  rw [exec_cfgMemsizeWrite_of_taken htaken v]
  constructor
  · rintro ⟨hhalted, hcode, hfree⟩
    rw [State.writeMemsize_of_taken hhalted hcode hfree]
  · intro hrefused
    rw [State.writeMemsize_of_refused hrefused]
    rfl

end Sys2Proof.Machine
end

section
/-! Merge writes: what a coalescing and a wait do, what the port is told, and the outcome of a merge write
(R20 to R28, R36, R119, R148). -/

namespace Sys2Proof.Machine

/-! ### Coalescing (R22, R36) -/

/-- A drain READ that waits for an entry whose mask is now full becomes a WRITE (R36). -/
theorem State.mbCoalesce_of_full {s : State} {e : Fin 8} {m : MergeWrite}
    (hd : s.mb.drain = { phase := .readWait, entry := some e })
    (hfull : ((s.mb.entry e).coalesce m).mask = 15#4) :
    s.mbCoalesce e m =
      (s.setMb { s.mb.setEntry e ((s.mb.entry e).coalesce m) with
        drain := { phase := .writeWait, entry := some e } }).request .dr .write (s.mb.entry e).addr := by
  have hphase : s.mb.drain.phase = .readWait := by rw [hd]
  have hentry : s.mb.drain.entry = some e := by rw [hd]
  rw [State.mbCoalesce, if_pos ⟨hphase, hentry, hfull⟩]
  simp only [hentry]
  rfl

/-- Without a waiting drain READ for the entry, or with lanes still missing, coalescing writes the entry alone (R22). -/
theorem State.mbCoalesce_of_not_full {s : State} {e : Fin 8} {m : MergeWrite}
    (h : s.mb.drain ≠ { phase := .readWait, entry := some e } ∨ ((s.mb.entry e).coalesce m).mask ≠ 15#4) :
    s.mbCoalesce e m = s.setMb (s.mb.setEntry e ((s.mb.entry e).coalesce m)) := by
  refine if_neg ?_
  rintro ⟨hphase, hentry, hfull⟩
  rcases h with hd | hmask
  · exact hd (congrArg₂ Drain.mk hphase hentry)
  · exact hmask hfull

/-! ### Waiting (R26, R28) -/

/-- The number of FAULTED entries is 8 exactly when every entry is FAULTED (R28). -/
theorem MergeBuffer.count_faulted_eq_eight {mb : MergeBuffer} :
    mb.count (fun e => e.state == .faulted) = 8 ↔ ∀ e, (mb.entry e).state = .faulted := by
  simp [MergeBuffer.count_eq_eight]

theorem State.mbWait_of_all_faulted {s : State} (h : ∀ e, (s.mb.entry e).state = .faulted) (m : MergeWrite) :
    s.mbWait m =
      (s.setMb { s.mb with waiting := s.mb.waiting ++ [m] }).setIrq { s.irq with mbBlocked := true } :=
  if_pos (MergeBuffer.count_faulted_eq_eight.mpr h)

theorem State.mbWait_of_not_all_faulted {s : State} (h : ¬ ∀ e, (s.mb.entry e).state = .faulted) (m : MergeWrite) :
    s.mbWait m = s.setMb { s.mb with waiting := s.mb.waiting ++ [m] } :=
  if_neg (mt MergeBuffer.count_faulted_eq_eight.mp h)

/-! ### What the port is told (R119, R148) -/

/-- A port is told nothing while its merge write is held or waits (R20). -/
@[simp] theorem State.mbTell_outstanding (s : State) (q : Port) : s.mbTell q .outstanding = s := rfl

@[simp] theorem State.mbTell_pp_accepted (s : State) : s.mbTell .pp .accepted = s.ppComplete .ok 0#32 := rfl

@[simp] theorem State.mbTell_pp_refused (s : State) : s.mbTell .pp .refused = s.ppComplete .entryFaulted 0#32 := rfl

@[simp] theorem streamOf_port (p : SpId) : streamOf p.port = some p := by
  cases p <;> rfl

@[simp] theorem State.mbTell_port_accepted (s : State) (p : SpId) : s.mbTell p.port .accepted = s.beatAccepted p := by
  simp only [State.mbTell, streamOf_port]

@[simp] theorem State.mbTell_port_refused (s : State) (p : SpId) :
    s.mbTell p.port .refused = s.endBurst p .entryFaulted := by
  simp only [State.mbTell, streamOf_port]

/-- The last beat ends the burst OK with every beat done (R148). -/
theorem State.beatAccepted_last {s : State} {p : SpId} {b : Burst} (hb : (s.sp p).burst = some b)
    (hlast : b.done + 1 = b.hdr.length) :
    s.beatAccepted p = s.setSp p ((s.sp p).ended b.hdr.tag .ok (b.done + 1)) := by
  have hadvanced : ((s.setBurst p (some { b with done := b.done + 1 })).sp p).burst =
      some { b with done := b.done + 1 } := by
    simp [State.setBurst]
  simp only [State.beatAccepted, hb, if_pos hlast, State.endBurst_eq_ended hadvanced]
  simp [State.setBurst, StreamPort.ended]

/-- With beats to come the burst awaits its next one (R148, R152). -/
theorem State.beatAccepted_more {s : State} {p : SpId} {b : Burst} (hb : (s.sp p).burst = some b)
    (hmore : b.done + 1 ≠ b.hdr.length) :
    s.beatAccepted p = s.awaitBeat p { b with done := b.done + 1 } .beatWait := by
  simp only [State.beatAccepted, hb, if_neg hmore]

/-! ### A merge write's outcome (R20 to R28) -/

/-- A merge write is the buffer's answer at its offer, and what the port is told of it. -/
theorem State.mergeIssue_of_offer {s t : State} {m : MergeWrite} {a : MbAnswer} (h : s.mbOffer m = (a, t)) :
    s.mergeIssue m = t.mbTell m.port a := by
  rw [State.mergeIssue, h]

section
variable {s : State} {m : MergeWrite} {e : Fin 8}

theorem State.mergeIssue_of_locked (h : s.locked m.addr = true) : s.mergeIssue m = s.mbHold m :=
  (State.mergeIssue_of_offer (State.mbOffer_held h)).trans (State.mbTell_outstanding _ _)

theorem State.mergeIssue_of_empty (h : s.locked m.addr = false) (hm : m.mask = 0#4) :
    s.mergeIssue m = s.mbTell m.port .accepted :=
  State.mergeIssue_of_offer (State.mbOffer_empty h hm)

theorem State.mergeIssue_of_faulted (h : s.locked m.addr = false) (hm : m.mask ≠ 0#4)
    (he : s.mb.entryFor m.addr = some e) (hf : (s.mb.entry e).state = .faulted) :
    s.mergeIssue m = s.mbTell m.port .refused :=
  State.mergeIssue_of_offer ((State.mbOffer_entry h hm he).trans (if_pos hf))

theorem State.mergeIssue_of_entry (h : s.locked m.addr = false) (hm : m.mask ≠ 0#4)
    (he : s.mb.entryFor m.addr = some e) (hf : (s.mb.entry e).state ≠ .faulted) :
    s.mergeIssue m = (s.mbCoalesce e m).mbTell m.port .accepted :=
  State.mergeIssue_of_offer ((State.mbOffer_entry h hm he).trans (if_neg hf))

theorem State.mergeIssue_of_firstFree (h : s.locked m.addr = false) (hm : m.mask ≠ 0#4)
    (he : s.mb.entryFor m.addr = none) (hf : s.mb.firstFree = some e) :
    s.mergeIssue m = (s.mbAllocate e m).mbTell m.port .accepted :=
  State.mergeIssue_of_offer (State.mbOffer_allocate h hm he hf)

theorem State.mergeIssue_of_no_entry (h : s.locked m.addr = false) (hm : m.mask ≠ 0#4)
    (he : s.mb.entryFor m.addr = none) (hf : s.mb.firstFree = none) : s.mergeIssue m = s.mbWait m :=
  (State.mergeIssue_of_offer (State.mbOffer_wait h hm he hf)).trans (State.mbTell_outstanding _ _)

end

/-- Settles O49: the offer case by case (the lock, the empty mask, the word's entry, the lowest FREE entry, none), then
what the processor port and a stream port are told. -/
theorem mergeWriteOutcome : Obligations.MergeWriteOutcome := by
  refine ⟨fun s m => ⟨State.mergeIssue_of_locked, State.mergeIssue_of_empty, fun hunlocked hmask => ⟨?entry, ?noEntry⟩⟩,
    ?processor, ?stream⟩
  case entry =>
    intro e hactive haddr hunique
    have hentry : s.mb.entryFor m.addr = some e := MergeBuffer.entryFor_of_unique hactive haddr hunique
    refine ⟨State.mergeIssue_of_faulted hunlocked hmask hentry, fun hlive hdrain hfull => ?_, fun hlive hrest => ?_⟩
    · rw [State.mergeIssue_of_entry hunlocked hmask hentry hlive, State.mbCoalesce_of_full hdrain hfull]
      rfl
    · rw [State.mergeIssue_of_entry hunlocked hmask hentry hlive, State.mbCoalesce_of_not_full hrest]
      rfl
  case noEntry =>
    intro hnone
    have hentry : s.mb.entryFor m.addr = none := MergeBuffer.entryFor_of_none hnone
    refine ⟨fun e hfree hlowest => ?_, fun hfull => ?_⟩
    · have hfirst : s.mb.firstFree = some e := MergeBuffer.firstFree_of_lowest hfree hlowest
      exact State.mergeIssue_of_firstFree hunlocked hmask hentry hfirst
    · rw [State.mergeIssue_of_no_entry hunlocked hmask hentry (MergeBuffer.firstFree_of_none hfull)]
      by_cases hall : ∀ e, (s.mb.entry e).state = .faulted
      · exact ⟨true, State.mbWait_of_all_faulted hall m, fun _ => rfl, fun ⟨e, he⟩ => absurd (hall e) he⟩
      · exact ⟨s.irq.mbBlocked, State.mbWait_of_not_all_faulted hall m, fun h => absurd h hall, fun _ => rfl⟩
  case processor =>
    intro s x hexec
    rw [State.mbTell_pp_accepted, State.mbTell_pp_refused]
    exact ⟨State.ppComplete_some hexec .ok 0#32, State.ppComplete_some hexec .entryFaulted 0#32⟩
  case stream =>
    intro s p b hburst
    rw [State.mbTell_port_accepted, State.mbTell_port_refused]
    exact ⟨State.beatAccepted_last hburst, State.beatAccepted_more hburst, State.endBurst_eq_ended hburst .entryFaulted⟩

end Sys2Proof.Machine
end

section
/-! What leaves the word lock table alone: every operation of the machine but the creation, progress, removal and
cancellation of lock entries. -/

namespace Sys2Proof.Machine

variable (s : State)

/-! ### The error log -/

@[simp] theorem State.logRecord_wlt (r : ErrorRecord) : (s.logRecord r).wlt = s.wlt := by
  obtain ⟨l, hl⟩ := s.logRecord_elog r
  rw [hl, State.setElog_wlt]

@[simp] theorem State.countOutcome_wlt (o : DecodeOutcome) : (s.countOutcome o).wlt = s.wlt := by
  cases o <;> rfl

@[simp] theorem State.recordOutcome_wlt (o : DecodeOutcome) (r : ErrorRecord) :
    (s.recordOutcome o r).wlt = s.wlt := by
  unfold State.recordOutcome
  cases o with
  | clean => rfl
  | corrected pos =>
    dsimp only
    split
    · exact s.logRecord_wlt _
    · rfl
  | uncorrectable => exact s.logRecord_wlt _

@[simp] theorem State.reportRead_wlt (o : DecodeOutcome) (src : Source) (a : Addr) (k : AccessType) (g : Option Tag) :
    (s.reportRead o src a k g).wlt = s.wlt := by
  obtain ⟨l, hl⟩ := s.reportRead_elog o src a k g
  rw [hl, State.setElog_wlt]

@[simp] theorem State.logFault_wlt (k : RecordKind) (q : Port) (a : Addr) (x : AccessType) (g : Tag) :
    (s.logFault k q a x g).wlt = s.wlt := s.logRecord_wlt _

/-! ### The arbiter and the array interface -/

@[simp] theorem State.setSlot_wlt (r : Requester) (x : Option Request) : (s.setSlot r x).wlt = s.wlt := rfl
@[simp] theorem State.request_wlt (r : Requester) (k : AccessKind) (a : Addr) : (s.request r k a).wlt = s.wlt := rfl
@[simp] theorem State.withdrawScrub_wlt : s.withdrawScrub.wlt = s.wlt := rfl
@[simp] theorem State.arbGrant_wlt (r : Requester) (tier3 : Bool) : (s.arbGrant r tier3).wlt = s.wlt := rfl
@[simp] theorem State.beginAccess_wlt (k : AccessKind) (r : Requester) (a : Addr) (d : Option Word) :
    (s.beginAccess k r a d).wlt = s.wlt := rfl
@[simp] theorem State.endAccess_wlt : s.endAccess.wlt = s.wlt := rfl
@[simp] theorem State.pairedWrite_wlt (a : Access) (read : Word × DecodeOutcome) (d : Word) :
    (s.pairedWrite a read d).wlt = s.wlt := rfl
@[simp] theorem State.storeWord_wlt (a : Addr) (d : Word) : (s.storeWord a d).wlt = s.wlt := rfl
@[simp] theorem State.disturb_wlt (a : Addr) (flips : Bits39) : (s.disturb a flips).wlt = s.wlt := rfl

/-- The atomic engine's request follows the table and does not change it (R60). -/
@[simp] theorem State.aeUpdate_wlt : s.aeUpdate.wlt = s.wlt := s.aeUpdate_follows.2 .wlt (by decide)

/-! ### The processor port -/

@[simp] theorem State.setPpPhase_wlt (ph : PpPhase) : (s.setPpPhase ph).wlt = s.wlt := by
  unfold State.setPpPhase
  split <;> rfl

@[simp] theorem State.ppComplete_wlt (st : CplStatus) (d : Word) : (s.ppComplete st d).wlt = s.wlt := by
  obtain ⟨x, hx⟩ := s.ppComplete_shape st d
  rw [hx, State.setPpt_wlt]

@[simp] theorem State.releaseHeldAtomic_wlt (w : Addr) : (s.releaseHeldAtomic w).wlt = s.wlt := by
  obtain ⟨x, hx⟩ := s.releaseHeldAtomic_shape w
  rw [hx, State.setPpt_wlt]

@[simp] theorem State.ppLookup_wlt (r : PpRequest) : (s.ppLookup r).wlt = s.wlt := by
  unfold State.ppLookup
  split <;> simp

@[simp] theorem State.flushComplete_wlt : s.flushComplete.wlt = s.wlt := State.ppComplete_wlt _ _ _

/-! ### One stream port -/

@[simp] theorem State.send_wlt (p : SpId) (ms : List LinkMsg) : (s.send p ms).wlt = s.wlt := s.setSp_wlt p _
@[simp] theorem State.setBurst_wlt (p : SpId) (b : Option Burst) : (s.setBurst p b).wlt = s.wlt := s.setSp_wlt p _
@[simp] theorem State.holdBurst_wlt (p : SpId) (b : Burst) (ph : BurstPhase) (h : HoldAt) :
    (s.holdBurst p b ph h).wlt = s.wlt := s.setBurst_wlt p _
@[simp] theorem State.awaitBeat_wlt (p : SpId) (b : Burst) (ph : BurstPhase) : (s.awaitBeat p b ph).wlt = s.wlt :=
  s.setSp_wlt p _

@[simp] theorem State.endBurst_wlt (p : SpId) (st : EndStatus) : (s.endBurst p st).wlt = s.wlt := by
  obtain ⟨x, hx⟩ := s.endBurst_shape p st
  rw [hx, State.setSp_wlt]

@[simp] theorem State.suspend_wlt (p : SpId) (c : SuspendCause) : (s.suspend p c).wlt = s.wlt := by
  obtain ⟨x, hx⟩ := s.suspend_shape p c
  rw [hx, State.setSp_wlt]

@[simp] theorem State.burstGranted_wlt (p : SpId) : (s.burstGranted p).wlt = s.wlt := by
  unfold State.burstGranted
  split <;> simp

@[simp] theorem State.blockOperand_wlt (p : SpId) : (s.blockOperand p).wlt = s.wlt := by
  unfold State.blockOperand
  split
  · split <;> simp
  · rfl

@[simp] theorem State.beatExpiry_wlt (p : SpId) : (s.beatExpiry p).wlt = s.wlt := by
  unfold State.beatExpiry
  split <;> simp

@[simp] theorem State.refuseHeader_wlt (p : SpId) (f : Frame) (c : ProtocolCause) :
    (s.refuseHeader p f c).wlt = s.wlt := by
  simp [State.refuseHeader]

@[simp] theorem State.takeHeader_wlt (p : SpId) (f : Frame) : (s.takeHeader p f).wlt = s.wlt := by
  unfold State.takeHeader
  dsimp only
  split
  · split <;> simp
  · simp

@[simp] theorem State.abortQueued_wlt (p : SpId) (g : Tag) : (s.abortQueued p g).wlt = s.wlt := by
  unfold State.abortQueued
  dsimp only
  split <;> simp

@[simp] theorem State.portDisable_wlt (p : SpId) : (s.portDisable p).wlt = s.wlt := s.setSp_wlt p _

@[simp] theorem State.tickPort_wlt (p : SpId) : (s.tickPort p).wlt = s.wlt := by
  unfold State.tickPort
  split <;> simp

/-! ### Merge writes -/

@[simp] theorem State.mbCoalesce_wlt (e : Fin 8) (m : MergeWrite) : (s.mbCoalesce e m).wlt = s.wlt := by
  unfold State.mbCoalesce
  dsimp only
  split <;> rfl

@[simp] theorem State.mbAllocate_wlt (e : Fin 8) (m : MergeWrite) : (s.mbAllocate e m).wlt = s.wlt := rfl

@[simp] theorem State.mbWait_wlt (m : MergeWrite) : (s.mbWait m).wlt = s.wlt := by
  unfold State.mbWait
  dsimp only
  split <;> rfl

@[simp] theorem State.mbHold_wlt (m : MergeWrite) : (s.mbHold m).wlt = s.wlt := rfl

@[simp] theorem State.mbOffer_wlt (m : MergeWrite) : (s.mbOffer m).2.wlt = s.wlt := by
  unfold State.mbOffer
  split_ifs
  · exact s.mbHold_wlt m
  · rfl
  · split
    · split
      · rfl
      · exact s.mbCoalesce_wlt _ m
    · split
      · exact s.mbAllocate_wlt _ m
      · exact s.mbWait_wlt m

@[simp] theorem State.beatAccepted_wlt (p : SpId) : (s.beatAccepted p).wlt = s.wlt := by
  unfold State.beatAccepted
  split
  · rfl
  · dsimp only
    split <;> simp

@[simp] theorem State.mbTell_wlt (q : Port) (a : MbAnswer) : (s.mbTell q a).wlt = s.wlt := by
  unfold State.mbTell
  split <;> simp

@[simp] theorem State.mergeIssue_wlt (m : MergeWrite) : (s.mergeIssue m).wlt = s.wlt :=
  (State.mbTell_wlt _ _ _).trans (s.mbOffer_wlt m)

@[simp] theorem State.mergeWithdraw_wlt (q : Port) : (s.mergeWithdraw q).wlt = s.wlt := rfl

@[simp] theorem State.allocateWaiter_wlt : s.allocateWaiter.wlt = s.wlt := by
  unfold State.allocateWaiter
  split <;> simp

@[simp] theorem State.takeWriteBeat_wlt (p : SpId) (b : Burst) (d : Word) (m : LaneMask) :
    (s.takeWriteBeat p b d m).wlt = s.wlt := by
  unfold State.takeWriteBeat
  split <;> simp

@[simp] theorem State.issueHeldBeat_wlt (p : SpId) : (s.issueHeldBeat p).wlt = s.wlt := by
  unfold State.issueHeldBeat
  split
  · rfl
  · split <;> simp

/-! ### Bursts that begin or go on -/

@[simp] theorem State.readRequest_wlt (p : SpId) (b : Burst) : (s.readRequest p b).wlt = s.wlt := by
  unfold State.readRequest
  dsimp only
  split <;> simp

@[simp] theorem State.readWords_wlt (n : Nat) (p : SpId) : (State.readWords n p s).wlt = s.wlt := by
  induction n generalizing s with
  | zero => rfl
  | succ n ih =>
    unfold State.readWords
    split
    · rfl
    · split_ifs
      · exact s.holdBurst_wlt p _ _ _
      · exact s.holdBurst_wlt p _ _ _
      · split
        · exact s.readRequest_wlt p _
        · dsimp only
          split <;> simp [ih]

@[simp] theorem State.readOn_wlt (p : SpId) : (s.readOn p).wlt = s.wlt := s.readWords_wlt 16 p

@[simp] theorem State.readDelivered_wlt (p : SpId) (d : Word) (o : DecodeOutcome) :
    (s.readDelivered p d o).wlt = s.wlt := by
  unfold State.readDelivered
  split
  · rfl
  · dsimp only
    split_ifs <;> simp

@[simp] theorem State.admitAtomic_wlt (p : SpId) : (s.admitAtomic p).wlt = s.wlt := by
  unfold State.admitAtomic
  split
  · rfl
  · split_ifs <;> simp

@[simp] theorem State.spRelease_wlt (p : SpId) : (s.spRelease p).wlt = s.wlt := by
  unfold State.spRelease
  split
  · rfl
  · split <;> simp

@[simp] theorem State.srqDispatch_wlt (p : SpId) : (s.srqDispatch p).wlt = s.wlt := by
  unfold State.srqDispatch
  split
  · rfl
  · dsimp only
    split
    · split <;> simp
    · split <;> simp

/-! ### The drain engine, the patrol and the fill -/

@[simp] theorem State.drainStart_wlt : s.drainStart.wlt = s.wlt := by
  unfold State.drainStart
  split
  · rfl
  · dsimp only
    split <;> rfl

@[simp] theorem State.resolveRequest_wlt : s.resolveRequest.wlt = s.wlt := by
  unfold State.resolveRequest
  split <;> rfl

@[simp] theorem State.intervalExpiry_wlt : s.intervalExpiry.wlt = s.wlt := rfl

@[simp] theorem State.grantPort_wlt (q : Port) (r : Request) : (s.grantPort q r).wlt = s.wlt := by
  unfold State.grantPort
  dsimp only
  split <;> simp

@[simp] theorem State.grantDrain_wlt : s.grantDrain.wlt = s.wlt := by
  unfold State.grantDrain
  split
  · rfl
  · dsimp only
    split <;> rfl

@[simp] theorem State.grantScrub_wlt : s.grantScrub.wlt = s.wlt := by
  unfold State.grantScrub
  split <;> rfl

@[simp] theorem State.drainRecord_wlt (e : Fin 8) (x : Entry) (o : DecodeOutcome) :
    (s.drainRecord e x o).wlt = s.wlt := by
  unfold State.drainRecord
  split <;> simp

@[simp] theorem State.drainWrite_wlt (e : Fin 8) (x : Entry) : (s.drainWrite e x).wlt = s.wlt := rfl

@[simp] theorem State.drainReadDone_wlt (a : Access) : (s.drainReadDone a).wlt = s.wlt := by
  unfold State.drainReadDone
  split
  · rfl
  · unfold State.drainReadOf
    dsimp only
    split_ifs <;> simp

@[simp] theorem State.drainWriteDone_wlt (a : Access) : (s.drainWriteDone a).wlt = s.wlt := by
  unfold State.drainWriteDone
  dsimp only
  split <;> rfl

@[simp] theorem State.patrolEnd_wlt : s.patrolEnd.wlt = s.wlt := by
  unfold State.patrolEnd
  dsimp only
  split <;> rfl

@[simp] theorem State.patrolReadDone_wlt (a : Access) : (s.patrolReadDone a).wlt = s.wlt := by
  unfold State.patrolReadDone
  dsimp only
  split
  · split <;> simp
  · simp
  · simp

@[simp] theorem State.patrolWriteDone_wlt (a : Access) : (s.patrolWriteDone a).wlt = s.wlt := State.patrolEnd_wlt _

@[simp] theorem State.fillWriteDone_wlt (a : Access) : (s.fillWriteDone a).wlt = s.wlt := by
  unfold State.fillWriteDone State.fillNext
  split_ifs <;> rfl

/-! ### The ports' read completions -/

@[simp] theorem State.ppReadDone_wlt (a : Access) : (s.ppReadDone a).wlt = s.wlt := by
  unfold State.ppReadDone
  dsimp only
  split <;> simp

@[simp] theorem State.discardedReadDone_wlt (p : SpId) (a : Access) (g : Tag) :
    (s.discardedReadDone p a g).wlt = s.wlt := by
  unfold State.discardedReadDone
  dsimp only
  split
  · split <;> simp
  · simp

@[simp] theorem State.streamReadDone_wlt (p : SpId) (a : Access) : (s.streamReadDone p a).wlt = s.wlt := by
  unfold State.streamReadDone
  split
  · exact s.discardedReadDone_wlt p a _
  · split <;> simp

/-! ### The timebase, and reads with an effect -/

@[simp] theorem State.completeTick_wlt : s.completeTick.wlt = s.wlt := by
  unfold State.completeTick State.tickPatrol
  split <;> simp

@[simp] theorem State.refclk_wlt : s.refclk.wlt = s.wlt := by
  unfold State.refclk
  split <;> simp

@[simp] theorem State.popCompletion_wlt : s.popCompletion.wlt = s.wlt := by
  unfold State.popCompletion
  split <;> rfl

/-! ### Direct commands -/

@[simp] theorem State.quiesceComplete_wlt : s.quiesceComplete.wlt = s.wlt := rfl

@[simp] theorem State.scrubHalt_wlt : s.scrubHalt.wlt = s.wlt := by
  unfold State.scrubHalt
  split <;> rfl

@[simp] theorem State.cmdRun_wlt : s.cmdRun.2.wlt = s.wlt := by
  unfold State.cmdRun
  split <;> rfl

@[simp] theorem State.cmdHalt_wlt : s.cmdHalt.2.wlt = s.wlt := by
  unfold State.cmdHalt
  split
  · dsimp only
    split <;> simp
  · rfl

@[simp] theorem State.cmdPortEnable_wlt (arg : BitVec 8) : (s.cmdPortEnable arg).2.wlt = s.wlt := by
  unfold State.cmdPortEnable
  split
  · rfl
  · split <;> simp

@[simp] theorem State.cmdPortDisable_wlt (arg : BitVec 8) : (s.cmdPortDisable arg).2.wlt = s.wlt := by
  unfold State.cmdPortDisable
  split
  · rfl
  · split <;> simp

@[simp] theorem State.cmdPortResume_wlt (arg : BitVec 8) : (s.cmdPortResume arg).2.wlt = s.wlt := by
  unfold State.cmdPortResume
  split
  · rfl
  · split <;> simp

@[simp] theorem State.cmdLoadRegion_wlt (arg : BitVec 8) : (s.cmdLoadRegion arg).2.wlt = s.wlt := by
  unfold State.cmdLoadRegion
  split
  · rfl
  · split <;> rfl

@[simp] theorem State.cmdViewRegion_wlt (arg : BitVec 8) : (s.cmdViewRegion arg).2.wlt = s.wlt := by
  unfold State.cmdViewRegion
  split <;> rfl

@[simp] theorem State.cmdViewEntry_wlt (arg : BitVec 8) : (s.cmdViewEntry arg).2.wlt = s.wlt := by
  unfold State.cmdViewEntry
  split <;> rfl

@[simp] theorem State.resolveDiscard_wlt (e : Fin 8) : (s.resolveDiscard e).wlt = s.wlt := by
  unfold State.resolveDiscard
  split <;> rfl

@[simp] theorem State.cmdResolveDiscard_wlt (arg : BitVec 8) : (s.cmdResolveDiscard arg).2.wlt = s.wlt := by
  unfold State.cmdResolveDiscard
  split
  · rfl
  · split <;> simp

@[simp] theorem State.cmdResolveForce_wlt (arg : BitVec 8) : (s.cmdResolveForce arg).2.wlt = s.wlt := by
  unfold State.cmdResolveForce
  split
  · rfl
  · split <;> rfl

@[simp] theorem State.cmdScrubStart_wlt : s.cmdScrubStart.2.wlt = s.wlt := by
  unfold State.cmdScrubStart
  split_ifs <;> rfl

@[simp] theorem State.cmdScrubStop_wlt : s.cmdScrubStop.2.wlt = s.wlt := by
  unfold State.cmdScrubStop
  split <;> rfl

@[simp] theorem State.cmdFillStart_wlt : s.cmdFillStart.2.wlt = s.wlt := by
  unfold State.cmdFillStart
  dsimp only
  split_ifs <;> rfl

@[simp] theorem State.cmdFillStop_wlt : s.cmdFillStop.2.wlt = s.wlt := by
  unfold State.cmdFillStop
  split <;> rfl

@[simp] theorem State.cmdLogPop_wlt : s.cmdLogPop.2.wlt = s.wlt := by
  unfold State.cmdLogPop
  split <;> rfl

@[simp] theorem State.cmdLogClearOverflow_wlt : s.cmdLogClearOverflow.2.wlt = s.wlt := rfl
@[simp] theorem State.cmdClearCounts_wlt : s.cmdClearCounts.2.wlt = s.wlt := rfl

/-! ### Register writes -/

@[simp] theorem State.submit_wlt : s.submit.wlt = s.wlt := by
  unfold State.submit
  split
  · rfl
  · split <;> rfl

/-- A configuration write leaves the table alone when what it does in HALTED does (R108). -/
theorem State.cfgWrite_wlt (legal : Bool) {f : State → State} (hf : (f s).wlt = s.wlt) :
    (s.cfgWrite legal f).wlt = s.wlt := by
  by_cases h : s.ctl.state = .halted ∧ legal = true
  · rwa [State.cfgWrite_of_halted h.1 h.2]
  · rw [State.cfgWrite_of_refused h, State.setCtl_wlt]

@[simp] theorem State.writeMemsize_wlt (v : Reg16) : (s.writeMemsize v).wlt = s.wlt := by
  refine s.cfgWrite_wlt _ ?_
  dsimp only
  split <;> rfl

@[simp] theorem State.writePrescale_wlt (v : Reg16) : (s.writePrescale v).wlt = s.wlt := s.cfgWrite_wlt _ rfl
@[simp] theorem State.writeWatermarks_wlt (v : Reg16) : (s.writeWatermarks v).wlt = s.wlt := s.cfgWrite_wlt _ rfl
@[simp] theorem State.writeProtect_wlt (v : Reg16) : (s.writeProtect v).wlt = s.wlt := s.cfgWrite_wlt _ rfl
@[simp] theorem State.writeIrqPending_wlt (v : Reg16) : (s.writeIrqPending v).wlt = s.wlt := rfl
@[simp] theorem State.writeSpConfig_wlt (p : SpId) (v : Reg16) : (s.writeSpConfig p v).wlt = s.wlt := s.setSp_wlt p _

end Sys2Proof.Machine
end

section
/-! The word lock table holds at most one entry a port (R54): the law is kept by every edit of the table, by every event
of the part's own and every row, and so by every step. -/

namespace Sys2Proof.Machine

variable {s : State}

/-! ### Edits of the table -/

/-- The law speaks of the table alone. -/
theorem InvLocks.of_wlt {t : State} (h : InvLocks s) (ht : t.wlt = s.wlt) : InvLocks t := by
  rwa [InvLocks, ht]

/-- An empty table holds no port twice. -/
theorem InvLocks.of_nil (h : s.wlt = []) : InvLocks s := by
  simp [InvLocks, h]

/-- Entries may leave (R55). -/
theorem InvLocks.eraseLock (h : InvLocks s) (q : Port) : InvLocks (s.eraseLock q) :=
  h.sublist (List.filter_sublist.map _)

/-- An entry may change everything but its port. -/
theorem InvLocks.map {f : LockEntry → LockEntry} (h : InvLocks s) (hf : ∀ e, (f e).port = e.port) :
    InvLocks (s.setWlt (s.wlt.map f)) := by
  have hports : (s.wlt.map f).map (·.port) = s.wlt.map (·.port) := by simp [Function.comp_def, hf]
  rwa [InvLocks, State.setWlt_wlt, hports]

theorem InvLocks.setLockState (h : InvLocks s) (q : Port) (st : LockState) : InvLocks (s.setLockState q st) :=
  h.map fun e => by split <;> rfl

/-- The entry of a port that has none joins the table (R54). -/
theorem InvLocks.append (h : InvLocks s) {e : LockEntry} (he : s.hasLock e.port = false) :
    InvLocks (s.setWlt (s.wlt ++ [e])) := by
  have hnew : ∀ x ∈ s.wlt, x.port ≠ e.port := by simpa [State.hasLock] using he
  simpa [InvLocks, List.nodup_append] using ⟨h, hnew⟩

/-! ### Creation, removal and cancellation (R56 to R70) -/

/-- The next entry for a word only changes its state, or leaves and lets the next one act (R58, R63). -/
theorem InvLocks.lockNext (n : Nat) (w : Addr) (h : InvLocks s) : InvLocks (State.lockNext n w s) := by
  induction n generalizing s with
  | zero => exact h
  | succ n ih =>
    cases hf : s.firstLock w with
    | none =>
      rw [State.lockNext_none hf]
      exact h.of_wlt (s.releaseHeldAtomic_wlt w)
    | some e =>
      by_cases he : e.state = .waitTurn
      · cases hk : s.mbAsk w with
        | none =>
          rw [State.lockNext_clear hf he hk]
          exact h.setLockState _ _
        | forced i =>
          rw [State.lockNext_forced hf he hk]
          exact (h.of_wlt (s.setMb_wlt _)).setLockState _ _
        | faulted =>
          rw [State.lockNext_faulted hf he hk]
          exact ih ((h.eraseLock e.port).of_wlt (State.deliver_wlt _ _ _))
      · rwa [State.lockNext_waiting hf he]

/-- A port that has an entry creates none (R54). -/
theorem InvLocks.createLock (h : InvLocks s) (e : LockEntry) : InvLocks (s.createLock e) := by
  unfold State.createLock
  split
  · exact h
  · rename_i hfree
    exact ((h.append (by simpa using hfree)).lockNext _ _).of_wlt (State.aeUpdate_wlt _)

theorem InvLocks.removeLock (h : InvLocks s) (e : LockEntry) (r : Option LockResult) : InvLocks (s.removeLock e r) := by
  have hafter : InvLocks (s.afterRemoval e r) := (h.eraseLock e.port).of_wlt (s.afterRemoval_wlt e r)
  rw [State.removeLock_eq]
  exact (hafter.lockNext _ _).of_wlt (State.aeUpdate_wlt _)

theorem InvLocks.cancelLock (h : InvLocks s) (q : Port) : InvLocks (s.cancelLock q) := by
  unfold State.cancelLock
  split
  · exact h
  · split
    · exact h.map fun e => by split <;> rfl
    · exact h.removeLock _ _

/-! ### The atomic engine (R59 to R63) -/

theorem InvLocks.forcedSignal (h : InvLocks s) : InvLocks s.forcedSignal := by
  unfold State.forcedSignal
  split
  · exact h
  · split
    · exact h.removeLock _ _
    · exact (h.setLockState _ _).of_wlt (State.aeUpdate_wlt _)
    · exact (h.setLockState _ _).of_wlt (State.aeUpdate_wlt _)

theorem InvLocks.grantAtomic (h : InvLocks s) : InvLocks s.grantAtomic := by
  unfold State.grantAtomic
  split
  · exact h
  · exact (h.setLockState _ _).of_wlt (State.beginAccess_wlt _ _ _ _ _)

/-- Only the atomic engine's grant touches the table (R60, R81). -/
theorem InvLocks.grant (h : InvLocks s) : InvLocks s.grant := by
  unfold State.grant
  split
  · exact h
  · rename_i r tier3 _
    have harb : InvLocks (s.arbGrant r tier3) := h.of_wlt (s.arbGrant_wlt r tier3)
    dsimp only
    split
    · exact h
    · exact harb.of_wlt (State.grantPort_wlt _ _ _)
    · exact harb.of_wlt (State.grantPort_wlt _ _ _)
    · exact harb.of_wlt (State.grantPort_wlt _ _ _)
    · exact harb.of_wlt (State.grantDrain_wlt _)
    · exact harb.grantAtomic
    · exact harb.of_wlt (State.grantScrub_wlt _)

theorem InvLocks.atomicReadDone (h : InvLocks s) (a : Access) : InvLocks (s.atomicReadDone a) := by
  unfold State.atomicReadDone
  split
  · exact h.of_wlt s.endAccess_wlt
  · unfold State.atomicReadOf
    dsimp only
    split
    · exact InvLocks.removeLock (h.of_wlt (by simp)) _ _
    · split
      · exact h.of_wlt (by simp)
      · exact InvLocks.removeLock (h.of_wlt (by simp)) _ _

theorem InvLocks.atomicWriteDone (h : InvLocks s) (a : Access) : InvLocks (s.atomicWriteDone a) := by
  have hstored : InvLocks (s.storeWord a.addr (a.writeData.getD 0#32)).endAccess := h.of_wlt rfl
  unfold State.atomicWriteDone
  dsimp only
  split
  · exact hstored
  · exact hstored.removeLock _ _

/-! ### The processor port (R56, R64, R116) -/

theorem InvLocks.ppLockStep (h : InvLocks s) (r : PpRequest) : InvLocks (s.ppLockStep r) := by
  unfold State.ppLockStep
  split
  · split
    · exact h.of_wlt (s.setPpPhase_wlt _)
    · exact h.of_wlt (s.ppLookup_wlt r)
  · exact h.of_wlt (by simp)
  · split
    · exact h.of_wlt (s.setPpPhase_wlt _)
    · exact InvLocks.createLock (h.of_wlt (s.setPpPhase_wlt _)) _
  · exact h

theorem InvLocks.ppStart (h : InvLocks s) (r : PpRequest) : InvLocks (s.ppStart r) := by
  have hfence : InvLocks (s.ppFenceStep r) := by
    unfold State.ppFenceStep
    split
    · exact h.of_wlt (s.setPpPhase_wlt _)
    · exact h.ppLockStep r
  unfold State.ppStart
  split
  · exact h.of_wlt (by simp)
  · split
    · exact h.of_wlt (by simp)
    · exact hfence
    · exact hfence
    · exact hfence

theorem InvLocks.prqDispatch (h : InvLocks s) : InvLocks s.prqDispatch := by
  unfold State.prqDispatch
  split
  · exact h
  · exact InvLocks.ppStart (h.of_wlt (s.setPpt_wlt _)) _

theorem InvLocks.ppLockRelease (h : InvLocks s) : InvLocks s.ppLockRelease := by
  unfold State.ppLockRelease
  split
  · exact h
  · split
    · exact InvLocks.createLock (h.of_wlt (s.setPpPhase_wlt _)) _
    · exact h.ppLockStep _
    · exact h.ppLockStep _
    · exact h.ppLockStep _

/-! ### The stream ports (R57, R69, R125, R133) -/

/-- The last operand of a stream atomic creates its entry (R57). -/
theorem InvLocks.takeOperand (h : InvLocks s) (p : SpId) (b : Burst) (d : Word) : InvLocks (s.takeOperand p b d) := by
  unfold State.takeOperand
  split
  · split
    · exact InvLocks.createLock (h.of_wlt (s.holdBurst_wlt p b _ _)) _
    · exact h.of_wlt (s.awaitBeat_wlt p _ _)
  · exact h
  · exact h

theorem InvLocks.takeBeat (h : InvLocks s) (p : SpId) (f : Frame) : InvLocks (s.takeBeat p f) := by
  unfold State.takeBeat
  split
  · exact h
  · rename_i b _
    split
    · cases b.phase with
      | beatWait => exact h.of_wlt (s.takeWriteBeat_wlt p b _ _)
      | operandWait | operandBlocked => exact h.takeOperand p b _
      | merge | readHold | readWait | readAccess | admitHold | locked => exact h
    · exact h

/-- An ABORT reaches the table only from a burst in LOCKED (R69, R154). -/
theorem InvLocks.abortBurst (h : InvLocks s) (p : SpId) (b : Burst) : InvLocks (s.abortBurst p b) := by
  unfold State.abortBurst
  cases b.phase with
  | readWait | readAccess => exact h.of_wlt (s.setBurst_wlt p _)
  | merge => exact h.of_wlt (by simp)
  | locked => exact InvLocks.cancelLock (h.of_wlt (s.endBurst_wlt p _)) _
  | readHold | beatWait | admitHold | operandWait | operandBlocked => exact h.of_wlt (s.endBurst_wlt p _)

theorem InvLocks.takeAbort (h : InvLocks s) (p : SpId) (g : Tag) : InvLocks (s.takeAbort p g) := by
  unfold State.takeAbort
  split
  · split
    · exact h.abortBurst p _
    · exact h.of_wlt (s.abortQueued_wlt p g)
  · exact h.of_wlt (s.abortQueued_wlt p g)

theorem InvLocks.takeFrame (h : InvLocks s) (p : SpId) (f : Frame) : InvLocks (s.takeFrame p f) := by
  unfold State.takeFrame
  split_ifs
  · exact h.of_wlt (s.takeHeader_wlt p f)
  · exact h.takeBeat p f
  · exact h.takeAbort p _
  · exact h

theorem InvLocks.arrive (h : InvLocks s) (p : SpId) (f : Frame) : InvLocks (s.arrive p f) := by
  unfold State.arrive
  split
  · exact h.takeFrame p f
  · exact h.of_wlt (by simp)

theorem InvLocks.linkTake (h : InvLocks s) (p : SpId) : InvLocks (s.linkTake p) := by
  unfold State.linkTake
  split
  · exact h
  · exact (InvLocks.takeFrame (h.of_wlt (s.setSp_wlt p _)) p _).of_wlt (State.blockOperand_wlt _ p)

/-- PORT_RESET reaches the table only from a burst in LOCKED (R69, R133). -/
theorem InvLocks.resetBurst (h : InvLocks s) (p : SpId) : InvLocks (s.resetBurst p) := by
  unfold State.resetBurst
  split
  · exact h
  · rename_i b _
    dsimp only
    cases b.phase with
    | readWait => exact h.of_wlt (by simp)
    | merge => exact h.of_wlt (by simp)
    | locked => exact InvLocks.cancelLock (h.of_wlt (s.setSp_wlt p _)) _
    | readHold | readAccess | beatWait | admitHold | operandWait | operandBlocked => exact h.of_wlt (s.setSp_wlt p _)

theorem InvLocks.portReset (h : InvLocks s) (p : SpId) : InvLocks (s.portReset p) :=
  (h.resetBurst p).of_wlt (State.setSp_wlt _ p _)

/-! ### The part's own events -/

theorem InvLocks.lockRelease (h : InvLocks s) (q : Port) : InvLocks (s.lockRelease q) := by
  unfold State.lockRelease
  split
  · exact h.of_wlt (by simp)
  · split
    · exact h.ppLockRelease
    · exact h.of_wlt (s.spRelease_wlt _)

theorem InvLocks.fenceRelease (h : InvLocks s) (q : Port) : InvLocks (s.fenceRelease q) := by
  unfold State.fenceRelease State.ppFenceRelease
  split
  · split
    · exact h.ppLockStep _
    · exact h
  · exact h.of_wlt (s.spRelease_wlt _)

theorem InvLocks.fire (h : InvLocks s) (d : Due) : InvLocks (s.fire d) := by
  cases d with
  | prqDispatch => exact h.prqDispatch
  | srqDispatch p => exact h.of_wlt (s.srqDispatch_wlt p)
  | linkTake p => exact h.linkTake p
  | lockRelease q => exact h.lockRelease q
  | fenceRelease q => exact h.fenceRelease q
  | waiterAlloc => exact h.of_wlt s.allocateWaiter_wlt
  | forcedSignal => exact h.forcedSignal
  | flushDone => exact h.of_wlt s.flushComplete_wlt
  | drainStart => exact h.of_wlt s.drainStart_wlt
  | resolveRequest => exact h.of_wlt s.resolveRequest_wlt
  | beatExpiry p => exact h.of_wlt (s.beatExpiry_wlt p)
  | intervalExpiry => exact h.of_wlt s.intervalExpiry_wlt
  | grant => exact h.grant
  | quiesce => exact h.of_wlt s.quiesceComplete_wlt

/-! ### Where an event from outside begins (log 1) -/

theorem InvLocks.setOwn (h : InvLocks s) (o : Own) : InvLocks (s.setOwn o) := h.of_wlt (s.setOwn_wlt o)

theorem InvLocks.eventStart (h : InvLocks s) : InvLocks s.eventStart :=
  State.eventStart_induct (fun _ o ht => ht.setOwn o) (fun _ d _ ht => ht.fire d) h

theorem InvLocks.eventTogether (h : InvLocks s) : InvLocks s.eventTogether :=
  State.eventTogether_induct (fun _ o ht => ht.setOwn o) (fun _ d _ ht => ht.fire d) h

theorem InvLocks.eventStartBy (h : InvLocks s) (together : Bool) : InvLocks (s.eventStartBy together) :=
  State.eventStartBy_induct (fun _ o ht => ht.setOwn o) (fun _ d _ ht => ht.fire d) h

/-- From every state under the law the action leads to one under it. -/
def KeepsLocks (f : State → State) : Prop := ∀ t, InvLocks t → InvLocks (f t)

/-- An action that leaves the table alone keeps the law. -/
theorem keepsLocks_of_wlt {f : State → State} (hf : ∀ t, (f t).wlt = t.wlt) : KeepsLocks f :=
  fun t ht => ht.of_wlt (hf t)

section
variable {f : State → State}

theorem InvLocks.internal (h : InvLocks s) (d : Due) : InvLocks (s.internal d) := by
  unfold State.internal
  split
  · exact h.fire d
  · exact h

theorem InvLocks.outside (h : InvLocks s) (hf : KeepsLocks f) : InvLocks (s.outside f) := by
  unfold State.outside
  split
  · exact h
  · exact hf _ h.eventStart

theorem InvLocks.busWrite (h : InvLocks s) (b : Bus) (hf : KeepsLocks f) : InvLocks (s.busWrite b f) := by
  unfold State.busWrite State.outsideBy
  split_ifs
  · exact h
  · exact hf _ (h.eventStartBy b.together)
  · exact h

theorem InvLocks.busRead (h : InvLocks s) (b : Bus) (hf : KeepsLocks f) : InvLocks (s.busRead b f) := by
  unfold State.busRead
  split_ifs
  · exact h.of_wlt rfl
  · exact h
  · exact hf _ (h.eventStartBy b.together)
  · exact h

end

theorem InvLocks.frameTaken {start : State} (h : InvLocks s) (hstart : InvLocks start) (p : SpId) (f : Arrival) :
    InvLocks (s.frameTaken p f start) := by
  unfold State.frameTaken
  split
  · exact h
  · exact hstart.arrive p f.frame

theorem InvLocks.complete {f : State → Access → State} (h : InvLocks s) (st : AifState) (r : Requester)
    (hf : ∀ a, KeepsLocks (f · a)) : InvLocks (s.complete st r f) :=
  h.outside fun t ht => by
    split
    · exact ht
    · exact hf _ t ht

/-! ### Commands and register writes -/

/-- A command's answer leaves the table as the command leaves it. -/
theorem InvLocks.command {f : State → CmdOutcome} (code : BitVec 8) (h : InvLocks (f s).2) :
    InvLocks (s.command code f) :=
  h.of_wlt rfl

/-- A command that leaves the table alone keeps the law. -/
theorem keepsLocks_command {f : State → CmdOutcome} (code : BitVec 8) (hf : ∀ t, (f t).2.wlt = t.wlt) :
    KeepsLocks fun t => t.command code f :=
  fun t ht => InvLocks.command code (ht.of_wlt (hf t))

theorem InvLocks.cmdPortReset (h : InvLocks s) (arg : BitVec 8) : InvLocks (s.cmdPortReset arg).2 := by
  unfold State.cmdPortReset
  split
  · exact h
  · exact h.portReset _

/-- Of the commands only PORT_RESET touches the table. -/
theorem InvLocks.cmdOfCode (h : InvLocks s) (code arg : BitVec 8) : InvLocks (State.cmdOfCode code arg s).2 := by
  by_cases hreset : code.toNat = 0x0A
  · simpa only [State.cmdOfCode, hreset] using h.cmdPortReset arg
  · refine h.of_wlt ?_
    unfold State.cmdOfCode
    split <;> simp_all

/-- Of the register writes only a COMMAND can touch the table. -/
theorem InvLocks.regWrite (h : InvLocks s) (off : BitVec 7) (v : Reg16) : InvLocks (State.regWrite off v s) := by
  by_cases hcommand : off.toNat = 0x02
  · simpa only [State.regWrite, hcommand] using InvLocks.command _ (h.cmdOfCode _ _)
  · refine h.of_wlt ?_
    unfold State.regWrite
    split <;> simp_all

/-! ### Every row, and every step -/

theorem InvLocks.streamReadCompletion (h : InvLocks s) :
    ∃ t, execStreamReadCompletion s = .next t ∧ InvLocks t :=
  ⟨_, rfl, h.outside fun t ht => by
    split
    · exact ht.of_wlt (t.streamReadDone_wlt .sp0 _)
    · exact ht.of_wlt (t.streamReadDone_wlt .sp1 _)
    · exact ht⟩

theorem InvLocks.writeBeat (h : InvLocks s) (p : SpId) (f : Arrival) (together : Bool) :
    ∃ t, execWriteBeat p f together s = .next t ∧ InvLocks t := by
  have hstart : InvLocks (if together then s.eventTogether else s.eventStart) := by
    split
    · exact h.eventTogether
    · exact h.eventStart
  exact ⟨_, rfl, h.frameTaken hstart p f⟩

/-- Every row leads to a state under the law, from any state under it. -/
theorem InvLocks.exec_next (h : InvLocks s) (c : Instr) : ∃ t, exec c s = .next t ∧ InvLocks t := by
  cases c with
  | resetAssert => exact ⟨_, rfl, h.outside fun _ _ => .of_nil rfl⟩
  | resetRelease => exact ⟨_, rfl, h.of_wlt (s.setReset_wlt false)⟩
  | tick => exact ⟨_, rfl, h.outside (keepsLocks_of_wlt fun t => by split <;> simp)⟩
  | refclkPeriod => exact ⟨_, rfl, h.outside (keepsLocks_of_wlt State.refclk_wlt)⟩
  | beatTimerExpiry p => exact ⟨_, rfl, h.internal (.beatExpiry p)⟩
  | intervalExpiry => exact ⟨_, rfl, h.internal .intervalExpiry⟩
  | ctrlStatusRead b => exact ⟨_, rfl, h.busRead b (keepsLocks_of_wlt fun _ => rfl)⟩
  | cplPop b => exact ⟨_, rfl, h.busRead b (keepsLocks_of_wlt State.popCompletion_wlt)⟩
  | reqSubmit b v => exact ⟨_, rfl, h.busWrite b (keepsLocks_of_wlt State.submit_wlt)⟩
  | cfgMemsizeWrite b v => exact ⟨_, rfl, h.busWrite b (keepsLocks_of_wlt (State.writeMemsize_wlt · v))⟩
  | cfgPrescaleWrite b v => exact ⟨_, rfl, h.busWrite b (keepsLocks_of_wlt (State.writePrescale_wlt · v))⟩
  | cfgWatermarksWrite b v => exact ⟨_, rfl, h.busWrite b (keepsLocks_of_wlt (State.writeWatermarks_wlt · v))⟩
  | cfgProtectWrite b v => exact ⟨_, rfl, h.busWrite b (keepsLocks_of_wlt (State.writeProtect_wlt · v))⟩
  | irqPendingWrite b v => exact ⟨_, rfl, h.busWrite b (keepsLocks_of_wlt (State.writeIrqPending_wlt · v))⟩
  | registerWrite b off v => exact ⟨_, rfl, h.busWrite b fun _ ht => ht.regWrite off v⟩
  | run b arg => exact ⟨_, rfl, h.busWrite b (keepsLocks_command _ State.cmdRun_wlt)⟩
  | halt b arg => exact ⟨_, rfl, h.busWrite b (keepsLocks_command _ State.cmdHalt_wlt)⟩
  | portEnable b arg => exact ⟨_, rfl, h.busWrite b (keepsLocks_command _ (State.cmdPortEnable_wlt · arg))⟩
  | portDisable b arg => exact ⟨_, rfl, h.busWrite b (keepsLocks_command _ (State.cmdPortDisable_wlt · arg))⟩
  | portReset b arg => exact ⟨_, rfl, h.busWrite b fun _ ht => .command _ (ht.cmdPortReset arg)⟩
  | portResume b arg => exact ⟨_, rfl, h.busWrite b (keepsLocks_command _ (State.cmdPortResume_wlt · arg))⟩
  | loadRegion b arg => exact ⟨_, rfl, h.busWrite b (keepsLocks_command _ (State.cmdLoadRegion_wlt · arg))⟩
  | viewRegion b arg => exact ⟨_, rfl, h.busWrite b (keepsLocks_command _ (State.cmdViewRegion_wlt · arg))⟩
  | viewEntry b arg => exact ⟨_, rfl, h.busWrite b (keepsLocks_command _ (State.cmdViewEntry_wlt · arg))⟩
  | resolveDiscard b arg => exact ⟨_, rfl, h.busWrite b (keepsLocks_command _ (State.cmdResolveDiscard_wlt · arg))⟩
  | resolveForce b arg => exact ⟨_, rfl, h.busWrite b (keepsLocks_command _ (State.cmdResolveForce_wlt · arg))⟩
  | scrubStart b arg => exact ⟨_, rfl, h.busWrite b (keepsLocks_command _ State.cmdScrubStart_wlt)⟩
  | scrubStop b arg => exact ⟨_, rfl, h.busWrite b (keepsLocks_command _ State.cmdScrubStop_wlt)⟩
  | fillStart b arg => exact ⟨_, rfl, h.busWrite b (keepsLocks_command _ State.cmdFillStart_wlt)⟩
  | fillStop b arg => exact ⟨_, rfl, h.busWrite b (keepsLocks_command _ State.cmdFillStop_wlt)⟩
  | logPop b arg => exact ⟨_, rfl, h.busWrite b (keepsLocks_command _ State.cmdLogPop_wlt)⟩
  | logClearOverflow b arg => exact ⟨_, rfl, h.busWrite b (keepsLocks_command _ State.cmdLogClearOverflow_wlt)⟩
  | clearCounts b arg => exact ⟨_, rfl, h.busWrite b (keepsLocks_command _ State.cmdClearCounts_wlt)⟩
  | unknownCommand b code arg => exact ⟨_, rfl, h.busWrite b fun _ ht => .command _ (ht.cmdOfCode code arg)⟩
  | header p f => exact ⟨_, rfl, h.frameTaken h.eventStart p f⟩
  | writeBeat p f together => exact h.writeBeat p f together
  | abort p f => exact ⟨_, rfl, h.frameTaken (h.eventStartBy f.together) p f.toArrival⟩
  | discardedFrame p f => exact ⟨_, rfl, h.frameTaken h.eventStart p f⟩
  | prqDispatch => exact ⟨_, rfl, h.internal .prqDispatch⟩
  | srqDispatch p => exact ⟨_, rfl, h.internal (.srqDispatch p)⟩
  | arrayGrant => exact ⟨_, rfl, h.internal .grant⟩
  | drainStart => exact ⟨_, rfl, h.internal .drainStart⟩
  | resolveWriteRequest => exact ⟨_, rfl, h.internal .resolveRequest⟩
  | ppReadCompletion => exact ⟨_, rfl, h.complete _ _ fun a => keepsLocks_of_wlt (State.ppReadDone_wlt · a)⟩
  | streamReadCompletion => exact h.streamReadCompletion
  | drainReadCompletion => exact ⟨_, rfl, h.complete _ _ fun a => keepsLocks_of_wlt (State.drainReadDone_wlt · a)⟩
  | drainWriteCompletion => exact ⟨_, rfl, h.complete _ _ fun a => keepsLocks_of_wlt (State.drainWriteDone_wlt · a)⟩
  | atomicReadCompletion => exact ⟨_, rfl, h.complete _ _ fun a _ ht => ht.atomicReadDone a⟩
  | atomicWriteCompletion => exact ⟨_, rfl, h.complete _ _ fun a _ ht => ht.atomicWriteDone a⟩
  | patrolReadCompletion => exact ⟨_, rfl, h.complete _ _ fun a => keepsLocks_of_wlt (State.patrolReadDone_wlt · a)⟩
  | patrolWriteCompletion => exact ⟨_, rfl, h.complete _ _ fun a => keepsLocks_of_wlt (State.patrolWriteDone_wlt · a)⟩
  | fillWriteCompletion => exact ⟨_, rfl, h.complete _ _ fun a => keepsLocks_of_wlt (State.fillWriteDone_wlt · a)⟩
  | lockHoldRelease q => exact ⟨_, rfl, h.internal (.lockRelease q)⟩
  | fenceHoldRelease q => exact ⟨_, rfl, h.internal (.fenceRelease q)⟩
  | waitingWriterAllocation => exact ⟨_, rfl, h.internal .waiterAlloc⟩
  | forcedDrainSignal => exact ⟨_, rfl, h.internal .forcedSignal⟩
  | flushCompletion => exact ⟨_, rfl, h.internal .flushDone⟩
  | quiesceComplete => exact ⟨_, rfl, h.internal .quiesce⟩
  | arrayDisturbance a flips => exact ⟨_, rfl, h.of_wlt (s.disturb_wlt a flips)⟩

/-- A step is the front command's row, or on an empty queue one of the part's own events. -/
theorem InvLocks.step_next (h : InvLocks s) : ∃ t, step s = .next t ∧ InvLocks t := by
  unfold step
  split
  · exact InvLocks.exec_next (h.of_wlt (s.setPending_wlt _)) _
  · exact ⟨_, rfl, State.settleOne_induct (fun _ ht => ht.setOwn _) (fun _ d _ ht => ht.fire d) _ h⟩

/-! ### Three ports, and device reset -/

/-- A list that names no port twice names at most the three there are. -/
theorem length_le_three_of_nodup_ports {l : List Port} (h : l.Nodup) : l.length ≤ 3 := by
  have hall : l ⊆ [.pp, .sp0, .sp1] := fun q _ => by cases q <;> simp
  exact (List.subperm_of_subset h hall).length_le

theorem InvLocks.length_le_three (h : InvLocks s) : s.wlt.length ≤ 3 := by
  simpa using length_le_three_of_nodup_ports h

/-- RESET_ASSERT out of reset leaves every block but the array at its defaults (R198). -/
theorem State.assertReset_wlt_of_release (h : s.resetAsserted = false) : s.assertReset.wlt = [] := by
  rw [State.assertReset, State.outside_of_release h]
  rfl

/-- Settles O58, by the law's preservation at every step, the number of ports, and the table of the reset state. -/
theorem lockTableLawKept : Obligations.LockTableLawKept := by
  refine ⟨fun s t h hstep => ?_, fun s h => h.length_le_three, rfl, .of_nil rfl, fun s t hreset hexec => ?_⟩
  · obtain ⟨u, hu, hlocks⟩ := h.step_next
    exact Host.Outcome.next.inj (hu.symm.trans hstep) ▸ hlocks
  · have ht : s.assertReset = t := Host.Outcome.next.inj hexec
    exact ht ▸ State.assertReset_wlt_of_release hreset

end Sys2Proof.Machine
end

section
/-! The verdicts of the access checks: alignment and address limit, the governing descriptor and its rights, and the
verdicts of a processor request and of a stream header (R86 to R93). -/

namespace Sys2Proof.Machine

variable {s : State}

/-! ### The governing descriptor and its rights (R91, R92) -/

/-- Descriptor `n` is enabled and its blocks hold the word (R91). -/
def State.RegionHolds (s : State) (n : Fin 16) (w : Addr) : Prop :=
  s.acu.regions[n].enabled = true ∧ s.acu.regions[n].first.toNat ≤ w.toNat / 64 ∧
  w.toNat / 64 ≤ s.acu.regions[n].last.toNat

/-- The lowest-numbered enabled descriptor over the word gives the port the right that the access needs (R92). -/
def State.Granted (s : State) (q : Port) (k : AccessType) (w : Addr) : Prop :=
  ∃ n : Fin 16, s.RegionHolds n w ∧ (∀ m : Fin 16, m < n → ¬ s.RegionHolds m w) ∧
    (s.acu.regions[n].rightsOf q).grants k = true

/-- A block is 64 words. -/
theorem blockOf_toNat (w : Addr) : (blockOf w).toNat = w.toNat / 64 := by
  rw [blockOf, BitVec.extractLsb'_toNat, Nat.shiftRight_eq_div_pow]
  omega

theorem State.contains_blockOf_iff {n : Fin 16} {w : Addr} :
    s.acu.regions[n].contains (blockOf w) = true ↔ s.RegionHolds n w := by
  simp [Region.contains, State.RegionHolds, BitVec.le_def, blockOf_toNat, and_assoc]

/-- The search from the front of the table finds the lowest-numbered descriptor over the word. -/
theorem State.governing_eq_some_iff {w : Addr} {d : Region} :
    s.governing w = some d ↔
      ∃ n : Fin 16, s.RegionHolds n w ∧ (∀ m : Fin 16, m < n → ¬ s.RegionHolds m w) ∧ s.acu.regions[n] = d := by
  rw [State.governing, List.find?_eq_some_iff_getElem]
  constructor
  · rintro ⟨hd, i, hi, rfl, hlower⟩
    have hi16 : i < 16 := by simpa using hi
    refine ⟨⟨i, hi16⟩, State.contains_blockOf_iff.mp (by simpa using hd), fun m hm => ?_, by simp⟩
    have hno := hlower m hm
    rw [← State.contains_blockOf_iff]
    simpa using hno
  · rintro ⟨n, hn, hlower, rfl⟩
    refine ⟨State.contains_blockOf_iff.mpr hn, n, by simp, by simp, fun j hj => ?_⟩
    have hno := hlower ⟨j, hj.trans n.isLt⟩ hj
    rw [← State.contains_blockOf_iff] at hno
    simpa using hno

/-- No descriptor over the word, no right (R92). -/
theorem State.regionGrants_iff {q : Port} {k : AccessType} {w : Addr} :
    s.regionGrants q k w = true ↔ s.Granted q k w := by
  have hgoverned : s.regionGrants q k w = true ↔ ∃ d, s.governing w = some d ∧ (d.rightsOf q).grants k = true := by
    rw [State.regionGrants]
    cases s.governing w <;> simp
  simp only [hgoverned, State.governing_eq_some_iff, State.Granted]
  constructor
  · rintro ⟨_, ⟨n, hn, hlower, rfl⟩, hright⟩
    exact ⟨n, hn, hlower, hright⟩
  · rintro ⟨n, hn, hlower, hright⟩
    exact ⟨_, ⟨n, hn, hlower, rfl⟩, hright⟩

theorem State.regionGrants_eq_false_iff {q : Port} {k : AccessType} {w : Addr} :
    s.regionGrants q k w = false ↔ ¬ s.Granted q k w := by
  rw [← State.regionGrants_iff, Bool.not_eq_true]

/-! ### The verdict of a processor request (R88 to R92) -/

/-- R88: a half word lies on an even byte address, a word on a multiple of 4. -/
theorem PpRequest.aligned_eq_false_iff {r : PpRequest} :
    r.aligned = false ↔
      (r.size = .half ∧ r.addr.toNat % 2 ≠ 0) ∨ ((r.size = .word ∨ r.size = .noSize) ∧ r.addr.toNat % 4 ≠ 0) := by
  rw [PpRequest.aligned]
  cases r.size <;> simp

theorem State.ppVerdict_of_flush {r : PpRequest} (hop : r.op = .flush) : s.ppVerdict r = .pass := by
  rw [State.ppVerdict, hop]

/-- The three checks of every other request, in their order. -/
theorem State.ppVerdict_of_ne_flush {r : PpRequest} (hop : r.op ≠ .flush) :
    s.ppVerdict r =
      if !r.aligned then .fault .alignFault (wordOf r.addr)
      else if s.cfg.size ≤ (wordOf r.addr).toNat then .fault .addressFault (wordOf r.addr)
      else if s.cfg.protect && !s.regionGrants .pp r.op.access (wordOf r.addr) then
        .fault .regionFault (wordOf r.addr)
      else .pass := by
  rw [State.ppVerdict]
  cases hr : r.op with
  | flush => exact absurd hr hop
  | read | write | atomic => rfl

theorem State.ppVerdict_of_misaligned {r : PpRequest} (hop : r.op ≠ .flush) (hal : r.aligned = false) :
    s.ppVerdict r = .fault .alignFault (wordOf r.addr) := by
  rw [State.ppVerdict_of_ne_flush hop, hal]
  rfl

theorem State.ppVerdict_of_beyond {r : PpRequest} (hop : r.op ≠ .flush) (hal : r.aligned = true)
    (hsize : s.cfg.size ≤ (wordOf r.addr).toNat) : s.ppVerdict r = .fault .addressFault (wordOf r.addr) := by
  rw [State.ppVerdict_of_ne_flush hop, hal]
  exact if_pos hsize

/-- Past the first two checks the verdict is the region check's alone. -/
theorem State.ppVerdict_of_installed {r : PpRequest} (hop : r.op ≠ .flush) (hal : r.aligned = true)
    (hsize : (wordOf r.addr).toNat < s.cfg.size) :
    s.ppVerdict r =
      if s.cfg.protect && !s.regionGrants .pp r.op.access (wordOf r.addr) then .fault .regionFault (wordOf r.addr)
      else .pass := by
  rw [State.ppVerdict_of_ne_flush hop, hal]
  exact if_neg hsize.not_ge

/-! ### The verdict of a stream header (R89, R93) -/

/-- R89: the last word is computed in full, so an address that the carry brings back to 0 is past the limit too. -/
theorem State.streamVerdict_of_beyond {h : Header} (p : SpId) (hlen : 1 ≤ h.length)
    (hsize : s.cfg.size ≤ h.addr.toNat + h.length - 1) : s.streamVerdict p h = .fault .addressFault h.addr :=
  if_pos (by omega)

theorem State.streamVerdict_of_unprotected {h : Header} (p : SpId) (hlen : 1 ≤ h.length)
    (hsize : h.addr.toNat + h.length - 1 < s.cfg.size) (hprotect : s.cfg.protect = false) :
    s.streamVerdict p h = .pass := by
  rw [State.streamVerdict, if_neg (by omega), hprotect]
  rfl

theorem Header.find?_words_eq_none_iff {h : Header} {f : Addr → Bool} :
    h.words.find? f = none ↔ ∀ i < h.length, f (h.addr + BitVec.ofNat 20 i) = false := by
  simp [Header.words]

/-- The word found is the header's lowest that meets the test. -/
theorem Header.find?_words_of_lowest {h : Header} {f : Addr → Bool} {i : Nat} (hi : i < h.length)
    (hf : f (h.addr + BitVec.ofNat 20 i) = true) (hlower : ∀ j < i, f (h.addr + BitVec.ofNat 20 j) = false) :
    h.words.find? f = some (h.addr + BitVec.ofNat 20 i) := by
  have hfind : (List.range h.length).find? (f ∘ fun i => h.addr + BitVec.ofNat 20 i) = some i :=
    List.find?_range_eq_some.mpr ⟨hf, List.mem_range.mpr hi, fun j hj => by simp [hlower j hj]⟩
  rw [Header.words, List.find?_map, hfind]
  rfl

theorem State.streamVerdict_of_granted {h : Header} {p : SpId} (hlen : 1 ≤ h.length)
    (hsize : h.addr.toNat + h.length - 1 < s.cfg.size)
    (hgranted : ∀ i < h.length, s.Granted p.port h.op.access (h.addr + BitVec.ofNat 20 i)) :
    s.streamVerdict p h = .pass := by
  have hnone : h.words.find? (fun w => !s.regionGrants p.port h.op.access w) = none :=
    Header.find?_words_eq_none_iff.mpr fun i hi => by simp [State.regionGrants_iff.mpr (hgranted i hi)]
  rw [State.streamVerdict, if_neg (by omega), hnone]
  exact ite_self _

/-- R93: one refused word refuses the whole header, and the record names the lowest. -/
theorem State.streamVerdict_of_refused {h : Header} {p : SpId} {i : Nat}
    (hsize : h.addr.toNat + h.length - 1 < s.cfg.size) (hi : i < h.length) (hprotect : s.cfg.protect = true)
    (hrefused : ¬ s.Granted p.port h.op.access (h.addr + BitVec.ofNat 20 i))
    (hlower : ∀ j < i, s.Granted p.port h.op.access (h.addr + BitVec.ofNat 20 j)) :
    s.streamVerdict p h = .fault .regionFault (h.addr + BitVec.ofNat 20 i) := by
  have hfound : h.words.find? (fun w => !s.regionGrants p.port h.op.access w) = some (h.addr + BitVec.ofNat 20 i) :=
    Header.find?_words_of_lowest hi (by simp [State.regionGrants_eq_false_iff.mpr hrefused])
      fun j hj => by simp [State.regionGrants_iff.mpr (hlower j hj)]
  rw [State.streamVerdict, if_neg (by omega), hfound]
  exact if_pos hprotect

/-! ### The obligation -/

/-- Settles O33, by the checks in their order; `State.Granted` is the statement's own right of the governing
descriptor. -/
theorem accessVerdicts : Obligations.AccessVerdicts := by
  intro s
  refine ⟨fun r => ⟨State.ppVerdict_of_flush, fun hop hmis => ?_, fun hop hal hsize => ?_, fun hop hal hsize => ?_⟩,
    fun p h hlen => ⟨fun hsize => ?_, fun hsize => ⟨?_, fun i hi hprotect hrefused hlower => ?_⟩⟩⟩
  · exact State.ppVerdict_of_misaligned hop (PpRequest.aligned_eq_false_iff.mpr hmis)
  · exact State.ppVerdict_of_beyond hop (by simpa using mt PpRequest.aligned_eq_false_iff.mp hal) hsize
  · have haligned : r.aligned = true := by simpa using mt PpRequest.aligned_eq_false_iff.mp hal
    rw [State.ppVerdict_of_installed hop haligned hsize]
    constructor
    · rintro (hprotect | hgranted)
      · rw [hprotect]
        rfl
      · rw [State.regionGrants_iff.mpr hgranted, Bool.not_true, Bool.and_false]
        rfl
    · intro hprotect hrefused
      rw [hprotect, State.regionGrants_eq_false_iff.mpr hrefused]
      rfl
  · exact State.streamVerdict_of_beyond p hlen hsize
  · rintro (hprotect | hgranted)
    · exact State.streamVerdict_of_unprotected p hlen hsize hprotect
    · exact State.streamVerdict_of_granted hlen hsize hgranted
  · exact State.streamVerdict_of_refused hsize hi hprotect hrefused hlower

end Sys2Proof.Machine
end

section
/-! The reads with an effect: the bits of CTRL_STATUS, and CPL_POP (R109, R123, R193). -/

namespace Sys2Proof.Machine

/-! ### Fields packed into a register (R193) -/

theorem testBit_packBits (bs : List Bool) (i : Nat) : (packBits bs).testBit i = bs.getD i false := by
  induction bs generalizing i with
  | nil => simp [packBits]
  | cons b bs ih =>
    have hbit : packBits (b :: bs) = Nat.bit b (packBits bs) := by rw [packBits, Nat.bit_val, Nat.add_comm]
    cases i with
    | zero => rw [hbit, Nat.testBit_bit_zero, List.getD_cons_zero]
    | succ i => rw [hbit, Nat.testBit_bit_succ, List.getD_cons_succ, ih]

/-- Bits 3:0, 7:4 and 15:8 of a register that packs three fields are those of the field that begins there. -/
theorem getLsbD_threeFields {x y : Nat} (hx : x < 16) (hy : y < 16) (z : Nat) {i : Nat} (hi : i < 16) :
    (BitVec.ofNat 16 (x + 16 * y + 256 * z)).getLsbD i =
      if i < 4 then x.testBit i else if i < 8 then y.testBit (i - 4) else z.testBit (i - 8) := by
  have hlow : x + 16 * y + 256 * z = 2 ^ 4 * (2 ^ 4 * z + y) + x := by omega
  rw [BitVec.getLsbD_ofNat, decide_eq_true hi, Bool.true_and, hlow, Nat.testBit_two_pow_mul_add _ hx]
  by_cases h4 : i < 4
  · rw [if_pos h4, if_pos h4]
  · have hsub : i - 4 < 4 ↔ i < 8 := by omega
    rw [if_neg h4, if_neg h4, Nat.testBit_two_pow_mul_add _ hy, Nat.sub_sub]
    simp only [hsub]

/-! ### CTRL_STATUS (R109, Table 10-3) -/

theorem CtrlState.code_lt_sixteen (c : CtrlState) : c.code < 16 := by cases c <;> decide

section
variable (s : State)

theorem State.getLsbD_ctrlStatus {i : Nat} (hi : i < 16) :
    s.ctrlStatus.getLsbD i =
      if i < 4 then s.ctl.state.code.testBit i
      else if i < 8 then s.ctl.configRefused.toNat.testBit (i - 4)
      else s.quiesceConditions.getD (i - 8) false := by
  rw [← testBit_packBits]
  exact getLsbD_threeFields (CtrlState.code_lt_sixteen _) ((Bool.toNat_lt _).trans (by decide)) _ hi

theorem State.ctrlStatus_stateField : s.ctrlStatus.extractLsb' 0 4 = BitVec.ofNat 4 s.ctl.state.code :=
  BitVec.eq_of_getLsbD_eq fun i hi => by
    rw [BitVec.getLsbD_extractLsb', BitVec.getLsbD_ofNat, Nat.zero_add, State.getLsbD_ctrlStatus s (by omega),
      if_pos hi]

theorem State.ctrlStatus_configRefused : s.ctrlStatus.getLsbD 4 = s.ctl.configRefused := by
  rw [State.getLsbD_ctrlStatus s (by decide), if_neg (by decide), if_pos (by decide), Nat.testBit_bool_toNat]
  rfl

/-- The quiesce conditions stand from bit 8 on, in R105's order. -/
theorem State.ctrlStatus_condition {i : Nat} (hi : i < 8) :
    s.ctrlStatus.getLsbD (8 + i) = s.quiesceConditions.getD i false := by
  rw [State.getLsbD_ctrlStatus s (by omega), if_neg (by omega), if_neg (by omega), Nat.add_sub_cancel_left]

theorem State.ctrlStatus_zeroBelowConditions : s.ctrlStatus.extractLsb' 5 3 = 0#3 :=
  BitVec.eq_of_getLsbD_eq fun i hi => by
    rw [BitVec.getLsbD_extractLsb', State.getLsbD_ctrlStatus s (by omega), if_neg (by omega), if_pos (by omega),
      Nat.testBit_bool_toNat, decide_eq_false (by omega : ¬ 5 + i - 4 = 0), Bool.false_and, Bool.and_false,
      BitVec.getLsbD_zero]

/-- Six conditions leave the two bits above them 0. -/
theorem State.ctrlStatus_zeroAboveConditions : s.ctrlStatus.extractLsb' 14 2 = 0#2 :=
  BitVec.eq_of_getLsbD_eq fun i hi => by
    have hlen : s.quiesceConditions.length ≤ 6 + i := Nat.le_add_right 6 i
    rw [BitVec.getLsbD_extractLsb', (by omega : 14 + i = 8 + (6 + i)), State.ctrlStatus_condition s (by omega),
      List.getD_eq_default _ _ hlen, Bool.and_false, BitVec.getLsbD_zero]

/-- Bits 13:8 say the six parts of `QuiesceHolds`, one each. -/
theorem State.ctrlStatus_quiesce :
    (s.ctrlStatus.getLsbD 8 = true ↔ s.ppt.exec = none) ∧
    (s.ctrlStatus.getLsbD 9 = true ↔ s.sp0.burst = none ∧ s.sp1.burst = none) ∧
    (s.ctrlStatus.getLsbD 10 = true ↔ s.wlt = []) ∧
    (s.ctrlStatus.getLsbD 11 = true ↔ ∀ e, (s.mb.entry e).state = .free ∨ (s.mb.entry e).state = .faulted) ∧
    (s.ctrlStatus.getLsbD 12 = true ↔ s.aif.state = .idle) ∧
    (s.ctrlStatus.getLsbD 13 = true ↔ s.sce.state = .idle) := by
  refine ⟨?_, ?_, ?_, ?_, ?_, ?_⟩
  · rw [State.ctrlStatus_condition s (i := 0) (by decide)]
    exact Option.isNone_iff_eq_none
  · rw [State.ctrlStatus_condition s (i := 1) (by decide)]
    simp [State.quiesceConditions]
  · rw [State.ctrlStatus_condition s (i := 2) (by decide)]
    exact List.isEmpty_iff
  · rw [State.ctrlStatus_condition s (i := 3) (by decide)]
    exact MergeBuffer.quiet_iff
  · rw [State.ctrlStatus_condition s (i := 4) (by decide)]
    exact beq_iff_eq
  · rw [State.ctrlStatus_condition s (i := 5) (by decide)]
    exact beq_iff_eq

end

/-! ### The two reads -/

section
variable {s : State}

theorem exec_ctrlStatusRead_of_taken {b : Bus} (h : Taken s b) :
    exec (.ctrlStatusRead b) s = .next (s.eventStartBy b.together).readCtrlStatus :=
  congrArg Host.Outcome.next (State.busRead_of_taken h State.readCtrlStatus)

theorem exec_cplPop_of_taken {b : Bus} (h : Taken s b) :
    exec (.cplPop b) s = .next (s.eventStartBy b.together).popCompletion :=
  congrArg Host.Outcome.next (State.busRead_of_taken h State.popCompletion)

/-- An empty queue drives EMPTY and keeps all else, CPL_DATA too. -/
theorem State.popCompletion_of_empty (h : s.ppt.cq = []) : s.popCompletion = s.drive 0x0000#16 := by
  simp only [State.popCompletion, State.cplHead, h]

theorem State.popCompletion_of_head {c : Completion} {rest : List Completion} (h : s.ppt.cq = c :: rest) :
    s.popCompletion =
      (s.setPpt { s.ppt with cq := rest, cplData := c.data }).drive
        (BitVec.ofNat 16 (c.status.code + 16 * c.op.code + 256 * c.tag.toNat)) := by
  simp only [State.popCompletion, State.cplHead, h]

end

/-- Settles O10: the value read is `State.ctrlStatus` at the event's start, field by field, and CPL_POP goes by whether
the completion queue is empty. -/
theorem readsWithAnEffect : Obligations.ReadsWithAnEffect := by
  refine ⟨fun s b htaken => ?_, fun s b htaken => ⟨fun hempty => ?_, fun c rest hhead => ?_⟩, rfl⟩
  · let u := s.eventStartBy b.together
    obtain ⟨hexec, hbursts, hlocks, hbuffer, harray, hscrub⟩ := u.ctrlStatus_quiesce
    exact ⟨u.ctrlStatus, exec_ctrlStatusRead_of_taken htaken, u.ctrlStatus_stateField, u.ctrlStatus_configRefused,
      u.ctrlStatus_zeroBelowConditions, hexec, hbursts, hlocks, hbuffer, harray, hscrub,
      u.ctrlStatus_zeroAboveConditions⟩
  · rw [exec_cplPop_of_taken htaken, State.popCompletion_of_empty hempty]
    rfl
  · rw [exec_cplPop_of_taken htaken, State.popCompletion_of_head hhead]
    rfl

end Sys2Proof.Machine
end

section
/-! The arrival of a HEADER: its operation code, the first arrival test it fails, its refusal and its place in the queue
(R126, R137 to R140, R196). -/

namespace Sys2Proof.Machine

/-! ### Operation codes (R196) -/

/-- The operation a header's code names: 0 READ, 1 WRITE, 2 to 6 an atomic, and none from 7 on. -/
theorem streamOpOfCode_cases (c : Nat) :
    (c = 0 ∧ streamOpOfCode c = some .read) ∨ (c = 1 ∧ streamOpOfCode c = some .write) ∨
    ((2 ≤ c ∧ c ≤ 6) ∧ ∃ a, streamOpOfCode c = some (.atomic a) ∧ a.code = c) ∨
    (7 ≤ c ∧ streamOpOfCode c = none) := by
  match c with
  | 0 => exact .inl ⟨rfl, rfl⟩
  | 1 => exact .inr (.inl ⟨rfl, rfl⟩)
  | 2 => exact .inr (.inr (.inl ⟨by decide, .fetchAdd, rfl, rfl⟩))
  | 3 => exact .inr (.inr (.inl ⟨by decide, .fetchOr, rfl, rfl⟩))
  | 4 => exact .inr (.inr (.inl ⟨by decide, .fetchClear, rfl, rfl⟩))
  | 5 => exact .inr (.inr (.inl ⟨by decide, .swap, rfl, rfl⟩))
  | 6 => exact .inr (.inr (.inl ⟨by decide, .compareSwap, rfl, rfl⟩))
  | n + 7 => exact .inr (.inr (.inr ⟨by omega, rfl⟩))

/-- Three bits hold the code. -/
theorem headerOpCode_le (f : Frame) : headerOpCode f ≤ 7 := Nat.le_of_lt_succ (f.extractLsb' 32 3).isLt

/-- A code that names an operation is that operation's code. -/
theorem code_getD_streamOpOfCode {c : Nat} (hc : c < 7) : ((streamOpOfCode c).getD .read).code = c := by
  rcases streamOpOfCode_cases c with ⟨rfl, -⟩ | ⟨rfl, -⟩ | ⟨-, a, hop, ha⟩ | ⟨h7, -⟩
  · rfl
  · rfl
  · rw [hop]
    exact ha
  · omega

/-- The access field of a refused header's record, by its code (R140). -/
theorem refusedAccess_eq (c : Nat) :
    refusedAccess c = if c = 1 then .write else if 2 ≤ c ∧ c ≤ 6 then .atomic else .read := by
  rcases streamOpOfCode_cases c with ⟨rfl, -⟩ | ⟨rfl, -⟩ | ⟨hc, a, hop, -⟩ | ⟨h7, hop⟩
  · rfl
  · rfl
  · rw [refusedAccess, hop, if_neg (by omega), if_pos hc]
    rfl
  · rw [refusedAccess, hop, if_neg (by omega), if_neg (by omega)]

/-! ### The arrival tests (R138) -/

section
variable {credits : Nat} {f : Frame} {c : ProtocolCause}

/-- With a credit and odd parity the operation code decides, and for an atomic its length. -/
theorem headerFault_of_parity (hcredits : credits ≠ 0) (hparity : headerParityOdd f = true) :
    headerFault credits f = some c ↔
      (c = .opcode ∧ headerOpCode f = 7) ∨
      (c = .length ∧ (2 ≤ headerOpCode f ∧ headerOpCode f ≤ 6) ∧ headerLength f ≠ 1) := by
  have hle := headerOpCode_le f
  rw [headerFault, if_neg hcredits, hparity]
  rcases streamOpOfCode_cases (headerOpCode f) with ⟨hc, hop⟩ | ⟨hc, hop⟩ | ⟨hc, a, hop, -⟩ | ⟨hc, hop⟩
  · rw [hop]
    simp [hc]
  · rw [hop]
    simp [hc]
  · have hne : headerOpCode f ≠ 7 := by omega
    rw [hop]
    simp [hc, hne, and_comm, eq_comm]
  · have heq : headerOpCode f = 7 := by omega
    rw [hop]
    simp [heq, eq_comm]

/-- The model's first failing test is the statement's. -/
theorem headerFault_eq_some_iff : headerFault credits f = some c ↔ HeaderFails credits f c := by
  by_cases hcredits : credits = 0
  · rw [headerFault, if_pos hcredits]
    cases c <;> simp [HeaderFails, hcredits]
  · cases hparity : headerParityOdd f with
    | false =>
      rw [headerFault, if_neg hcredits, hparity]
      cases c <;> simp [HeaderFails, hcredits, hparity]
    | true =>
      rw [headerFault_of_parity hcredits hparity]
      cases c <;> simp [HeaderFails, hcredits, hparity, and_assoc]

theorem headerFault_eq_none_iff : headerFault credits f = none ↔ ∀ c, ¬ HeaderFails credits f c := by
  simp only [Option.eq_none_iff_forall_ne_some, ne_eq, headerFault_eq_some_iff]

/-- A header that passes the tests names an operation: code 7 fails one of them. -/
theorem headerOpCode_lt_of_passes (h : ∀ c, ¬ HeaderFails credits f c) : headerOpCode f < 7 := by
  have hcredits : credits ≠ 0 := h .credit
  have hparity : headerParityOdd f = true :=
    Bool.eq_true_of_not_eq_false fun hp => h .parity ⟨hcredits, hp⟩
  exact lt_of_le_of_ne (headerOpCode_le f) fun hc => h .opcode ⟨hcredits, hparity, hc⟩

end

/-! ### A record beside the change of a port (R140, R175) -/

section
variable (s : State)

theorem State.setElog_sameBut (x : ErrorLog) : s.sameBut (s.setElog x) [.elog] := fun b hb => by
  cases b <;> first | rfl | simp at hb

/-- What the log becomes does not depend on a port. -/
theorem State.logRecord_setSp (p : SpId) (x : StreamPort) (r : ErrorRecord) :
    (s.setSp p x).logRecord r = (s.logRecord r).setSp p x := by
  unfold State.logRecord
  rw [State.setSp_elog]
  split <;> cases p <;> rfl

/-- A change of one port and a record leave every other block alone. -/
theorem State.setSp_logRecord_sameBut (p : SpId) (x : StreamPort) (r : ErrorRecord) :
    s.sameBut ((s.logRecord r).setSp p x) [spBlock p, .elog] := by
  obtain ⟨l, hl⟩ := s.logRecord_elog r
  rw [hl]
  exact State.sameBut_trans (State.sameBut_mono (s.setElog_sameBut l) (by simp))
    (State.sameBut_mono (State.setSp_sameBut _ p x) (by simp))

end

/-! ### What the taking of a HEADER does (R137 to R140) -/

section
variable {u : State} {p : SpId} {f : Frame}

theorem PortState.credited_iff {st : PortState} : st.credited = true ↔ st = .enabled ∨ st = .suspended := by
  cases st <;> simp [PortState.credited]

theorem PortState.not_credited_iff {st : PortState} : st.credited = false ↔ st = .disabled ∨ st = .disabling := by
  cases st <;> simp [PortState.credited]

/-- The port of a refused header: the END and the CREDIT are sent, and it is SUSPENDED with cause PROTOCOL (R140). -/
def StreamPort.refused (sp : StreamPort) (f : Frame) (c : ProtocolCause) : StreamPort :=
  { sp with
    state := .suspended
    cause := .protocol
    outbound := sp.outbound ++ ([.endMsg (headerTag f) .protocol 0] ++ if c = .credit then [] else [.credit 1]) }

/-- The record of a refused header (R140). -/
def refusalRecord (p : SpId) (f : Frame) (c : ProtocolCause) : ErrorRecord :=
  { ErrorRecord.base .protocol (portSource p.port) (headerAddr f) with
    access := some (refusedAccess (headerOpCode f)), tag := some (headerTag f), cause := some c }

/-- The refusal of an ENABLED or SUSPENDED port is a record and a change of the port. -/
theorem State.refuseHeader_of_credited (hcredited : (u.sp p).state.credited = true) (c : ProtocolCause) :
    u.refuseHeader p f c = (u.logRecord (refusalRecord p f c)).setSp p ((u.sp p).refused f c) := by
  unfold State.refuseHeader State.send
  dsimp only
  rw [State.logRecord_setSp, State.suspend_credited (by rw [State.setSp_sp_same]; exact hcredited),
    State.setSp_setSp, State.setSp_sp_same]
  rfl

theorem State.takeHeader_of_not_credited (h : (u.sp p).state.credited = false) :
    u.takeHeader p f = u.send p [.endMsg (headerTag f) .aborted 0] := by
  simp [State.takeHeader, h]

theorem State.takeHeader_of_fails {c : ProtocolCause} (h : (u.sp p).state.credited = true)
    (hfails : HeaderFails (u.sp p).credits f c) :
    u.takeHeader p f = (u.logRecord (refusalRecord p f c)).setSp p ((u.sp p).refused f c) := by
  rw [← State.refuseHeader_of_credited h]
  simp [State.takeHeader, h, headerFault_eq_some_iff.mpr hfails]

theorem State.takeHeader_of_passes (h : (u.sp p).state.credited = true)
    (hpasses : ∀ c, ¬ HeaderFails (u.sp p).credits f c) :
    u.takeHeader p f =
      u.setSp p { u.sp p with credits := (u.sp p).credits - 1, srq := (u.sp p).srq ++ [headerOf f] } := by
  simp [State.takeHeader, h, headerFault_eq_none_iff.mpr hpasses]

/-- The three outcomes of a HEADER, as the statements word them; the refusal's access field is read off its code. -/
theorem State.takeHeader_taken (u : State) (p : SpId) (f : Frame) : HeaderTaken u (u.takeHeader p f) p f := by
  refine ⟨fun hstate => ?_, fun hstate => ?_⟩
  · exact State.takeHeader_of_not_credited (PortState.not_credited_iff.mpr hstate)
  · have hcredited := PortState.credited_iff.mpr hstate
    refine ⟨fun c hfails => ⟨refusedAccess (headerOpCode f), ?_, refusedAccess_eq _, ?_, ?_⟩, fun hpasses => ?_⟩
    · rw [State.takeHeader_of_fails hcredited hfails]
      exact u.setSp_logRecord_sameBut p _ _
    · rw [State.takeHeader_of_fails hcredited hfails, State.setSp_sp_same]
      rfl
    · rw [State.takeHeader_of_fails hcredited hfails, State.setSp_elog]
      rfl
    · exact ⟨headerOf f, State.takeHeader_of_passes hcredited hpasses,
        code_getD_streamOpOfCode (headerOpCode_lt_of_passes hpasses), rfl, rfl, rfl⟩

/-! ### Arrival (R125, R199) -/

/-- A HEADER is no beat, so on an empty link it never waits. -/
theorem State.arrive_header (htype : frameType f = 1#4) (hempty : (u.sp p).inbound = []) :
    u.arrive p f = u.takeHeader p f := by
  have hbeat : ¬ BeatWaits u p f := fun h => absurd (htype.symm.trans h.1) (by decide)
  have hready : u.canTake p f = true := by simpa using mt State.canTake_eq_false_iff.mp hbeat
  rw [State.arrive, if_pos ⟨hempty, hready⟩, State.takeFrame, if_pos htype]

end

theorem exec_header_of_part (s : State) (p : SpId) (f : Frame) : exec (.header p ⟨f, false⟩) s = .next s :=
  congrArg Host.Outcome.next (s.frameTaken_of_part p f s.eventStart)

theorem exec_header_of_whole {s : State} (hreset : s.resetAsserted = false) (p : SpId) (f : Frame) :
    exec (.header p ⟨f, true⟩) s = .next (s.eventStart.arrive p f) :=
  congrArg Host.Outcome.next (State.frameTaken_of_whole hreset p f s.eventStart)

/-! ### The obligation -/

/-- Settles O30: a partial frame changes nothing, a HEADER behind another frame joins the link, and one on an empty link
is taken by the port's state and the first failing test. -/
theorem headerArrival : Obligations.HeaderArrival := by
  refine fun s p f hreset htype => ⟨exec_header_of_part s p f, fun hlink => ?_, fun hempty => ?_⟩
  · exact ⟨_, exec_header_of_whole hreset p f, State.arrive_joins (.inl hlink)⟩
  · rw [exec_header_of_whole hreset, State.arrive_header htype hempty]
    exact ⟨_, rfl, State.takeHeader_taken s.eventStart p f⟩

end Sys2Proof.Machine
end

section
/-! The error log and its counts: what a record, a count and the report of an array read change
(R175 to R177, R181, R182). -/

namespace Sys2Proof.Machine

/-! ### A record that finds the log full (R176, R177) -/

section
variable {s : State} {oldest : ErrorRecord} {rest : List ErrorRecord}

/-- The counter stands still at a drop while it equals the oldest record's number, so the kept numbers stay apart
from the next one (R176). -/
theorem State.logRecord_dropped_of_seq_eq (h8 : 8 ≤ s.elog.records.length) (hheld : s.elog.records = oldest :: rest)
    (hseq : s.elog.seq = oldest.seq) (r : ErrorRecord) :
    s.logRecord r = s.setElog { s.elog with overflow := true } := by
  have holdest : ((s.elog.records.head?.map (·.seq)) == some s.elog.seq) = true := by simp [hheld, hseq]
  rw [State.logRecord_dropped s r h8, if_pos holdest]

theorem State.logRecord_dropped_of_seq_ne (h8 : 8 ≤ s.elog.records.length) (hheld : s.elog.records = oldest :: rest)
    (hseq : s.elog.seq ≠ oldest.seq) (r : ErrorRecord) :
    s.logRecord r = s.setElog { s.elog with overflow := true, seq := s.elog.seq + 1 } := by
  have holdest : ¬ ((s.elog.records.head?.map (·.seq)) == some s.elog.seq) = true := by simp [hheld, hseq.symm]
  rw [State.logRecord_dropped s r h8, if_neg holdest]

end

/-! ### The counts (R182) -/

theorem saturatingInc_of_max {c : Reg16} (h : c = 0xFFFF#16) : saturatingInc c = c := if_pos h

theorem saturatingInc_of_ne_max {c : Reg16} (h : c ≠ 0xFFFF#16) : saturatingInc c = c + 1 := if_neg h

@[simp] theorem saturatingInc_zero : saturatingInc 0#16 = 1#16 := saturatingInc_of_ne_max (by decide)

section
variable (s : State)

@[simp] theorem State.countOutcome_clean : s.countOutcome .clean = s := rfl

@[simp] theorem State.countOutcome_corrected (pos : BitVec 7) :
    s.countOutcome (.corrected pos) =
      s.setElog { s.elog with cntCorrected := saturatingInc s.elog.cntCorrected } := rfl

@[simp] theorem State.countOutcome_uncorrectable :
    s.countOutcome .uncorrectable =
      s.setElog { s.elog with cntUncorrectable := saturatingInc s.elog.cntUncorrectable } := rfl

/-! ### The record of an array outcome (R175, R181) -/

@[simp] theorem State.recordOutcome_clean (r : ErrorRecord) : s.recordOutcome .clean r = s := rfl

@[simp] theorem State.recordOutcome_uncorrectable (r : ErrorRecord) :
    s.recordOutcome .uncorrectable r = s.logRecord { r with kind := .uncorrectable, pos := some 127#7 } := rfl

end

section
variable {s : State}

theorem State.recordOutcome_corrected_of_disabled (h : s.cfg.logging = false) (pos : BitVec 7) (r : ErrorRecord) :
    s.recordOutcome (.corrected pos) r = s := by
  simp only [State.recordOutcome, h, Bool.false_eq_true, if_false]

theorem State.recordOutcome_corrected_of_enabled (h : s.cfg.logging = true) (pos : BitVec 7) (r : ErrorRecord) :
    s.recordOutcome (.corrected pos) r = s.logRecord { r with kind := .corrected, pos := some pos } := by
  simp only [State.recordOutcome, h, if_true]

end

/-- Settles O51: the log with and without room, a read's report by its outcome and the enable, the saturation, and the
reset value. -/
theorem logAndCounts : Obligations.LogAndCounts := by
  refine ⟨fun s r => ⟨State.logRecord_kept s r, fun oldest rest hheld h8 => ⟨?standing, ?advancing⟩⟩,
    fun s src a k tag => ⟨?clean, fun pos => ⟨?disabled, ?enabled⟩, ?uncorrectable⟩,
    fun c => ⟨saturatingInc_of_max, saturatingInc_of_ne_max⟩, rfl⟩
  case standing => exact fun hseq => State.logRecord_dropped_of_seq_eq h8 hheld hseq r
  case advancing => exact fun hseq => State.logRecord_dropped_of_seq_ne h8 hheld hseq r
  case clean => rw [State.reportRead, State.countOutcome_clean, State.recordOutcome_clean]
  case disabled =>
    intro hdisabled
    exact State.recordOutcome_corrected_of_disabled (s := s.countOutcome (.corrected pos)) hdisabled pos _
  case enabled =>
    intro henabled
    exact State.recordOutcome_corrected_of_enabled (s := s.countOutcome (.corrected pos)) henabled pos _
  case uncorrectable =>
    rw [State.reportRead, State.countOutcome_uncorrectable, State.recordOutcome_uncorrectable]
    rfl

end Sys2Proof.Machine
end

section
/-! The direct commands of the error log: LOG_POP, LOG_CLEAR_OVERFLOW and CLEAR_COUNTS (R107, R178, R179, R183). -/

namespace Sys2Proof.Machine

/-! ### A direct command that is taken (R107) -/

/-- What a command answers and the state it leaves. -/
theorem State.command_eq_answered {s t : State} {f : State → CmdOutcome} {r : CmdResult} (h : f s = (r, t))
    (code : BitVec 8) : s.command code f = t.answered r code := by
  rw [State.command, h]
  rfl

/-- A taken COMMAND write is its command at the event's start, with its answer in COMMAND_RESULT. -/
theorem State.busWrite_command_of_taken {s t : State} {b : Bus} {f : State → CmdOutcome} {r : CmdResult}
    (htaken : Taken s b) (h : f (s.eventStartBy b.together) = (r, t)) (code : BitVec 8) :
    s.busWrite b (fun v => v.command code f) = t.answered r code := by
  rw [State.busWrite_of_taken htaken, State.command_eq_answered h]

@[simp] theorem State.answered_elog (t : State) (r : CmdResult) (code : BitVec 8) : (t.answered r code).elog = t.elog :=
  rfl

/-! ### LOG_POP (R178) -/

section
variable {s : State} {b : Bus} {r : ErrorRecord} {rest : List ErrorRecord}

theorem State.cmdLogPop_of_empty (h : s.elog.records = []) : s.cmdLogPop = (.refusedState, s) := by
  simp only [State.cmdLogPop, h]

theorem State.cmdLogPop_of_oldest (h : s.elog.records = r :: rest) :
    s.cmdLogPop = (.done, s.setElog { s.elog with records := rest, view := r.view }) := by
  simp only [State.cmdLogPop, h]

theorem exec_logPop_of_empty (htaken : Taken s b) (h : (s.eventStartBy b.together).elog.records = [])
    (arg : BitVec 8) :
    exec (.logPop b arg) s = .next ((s.eventStartBy b.together).answered .refusedState 0x28#8) :=
  congrArg Host.Outcome.next (State.busWrite_command_of_taken htaken (State.cmdLogPop_of_empty h) 0x28#8)

theorem exec_logPop_of_oldest (htaken : Taken s b) (h : (s.eventStartBy b.together).elog.records = r :: rest)
    (arg : BitVec 8) :
    exec (.logPop b arg) s =
      .next (((s.eventStartBy b.together).setElog
        { (s.eventStartBy b.together).elog with records := rest, view := r.view }).answered .done 0x28#8) :=
  congrArg Host.Outcome.next (State.busWrite_command_of_taken htaken (State.cmdLogPop_of_oldest h) 0x28#8)

end

/-- Settles O26, by whether the log is empty at the event's start; a pop leaves room, so the next record is kept. -/
theorem logPop : Obligations.LogPop := by
  refine fun s b arg htaken => ⟨?empty, ?oldest, ?afterwards⟩
  case empty => exact fun hempty => exec_logPop_of_empty htaken hempty arg
  case oldest =>
    exact fun r rest hheld => ⟨r.view, exec_logPop_of_oldest htaken hheld arg, rfl, rfl, rfl, rfl⟩
  case afterwards =>
    intro t r rest hnext hheld hroom x
    rw [exec_logPop_of_oldest htaken hheld arg] at hnext
    obtain rfl := Host.Outcome.next.inj hnext
    rw [State.logRecord_kept _ x hroom]
    rfl

/-! ### LOG_CLEAR_OVERFLOW (R179) -/

theorem exec_logClearOverflow_of_taken {s : State} {b : Bus} (htaken : Taken s b) (arg : BitVec 8) :
    exec (.logClearOverflow b arg) s =
      .next (((s.eventStartBy b.together).setElog
        { (s.eventStartBy b.together).elog with overflow := false }).answered .done 0x29#8) :=
  congrArg Host.Outcome.next (State.busWrite_command_of_taken (f := State.cmdLogClearOverflow) htaken rfl 0x29#8)

/-- Settles O27: the command's equation, and the drop of a record by a full log. -/
theorem logClearOverflow : Obligations.LogClearOverflow := by
  refine fun s b arg htaken => ⟨exec_logClearOverflow_of_taken htaken arg, fun t hfull r => ?_⟩
  rw [State.logRecord_dropped t r hfull.ge, State.setElog_elog]

/-! ### CLEAR_COUNTS (R183) -/

theorem exec_clearCounts_of_taken {s : State} {b : Bus} (htaken : Taken s b) (arg : BitVec 8) :
    exec (.clearCounts b arg) s =
      .next (((s.eventStartBy b.together).setElog
        { (s.eventStartBy b.together).elog with cntCorrected := 0#16, cntUncorrectable := 0#16 }).answered
          .done 0x2A#8) :=
  congrArg Host.Outcome.next (State.busWrite_command_of_taken (f := State.cmdClearCounts) htaken rfl 0x2A#8)

/-- Settles O28: both counts are 0 after the command, so the next counted completion makes its count 1. -/
theorem clearCounts : Obligations.ClearCounts := by
  refine fun s b arg htaken => ⟨_, exec_clearCounts_of_taken htaken arg, rfl, fun pos => ?_, ?_⟩
  · simp only [State.countOutcome_corrected, State.setElog_elog, State.answered_elog, saturatingInc_zero]
  · simp only [State.countOutcome_uncorrectable, State.setElog_elog, State.answered_elog, saturatingInc_zero]

end Sys2Proof.Machine
end

section
/-! What the part's operations keep: the laws of the queues, the ports, the buffer and the log (`State.Lawful`), and, for
work within the part, the blocks that only a grant, a timer or a command changes (`State.Works`). One lemma per operation;
the laws of every step are read off these. -/

namespace Sys2Proof.Machine

/-! ### The relations -/

/-- Nothing is in progress at any port. -/
def State.Quiet (s : State) : Prop :=
  s.ppt.exec = none ∧ (∀ p, (s.sp p).burst = none) ∧ s.wlt = []

/-- Each of the laws that speak of one block alone holds in `t` when it holds in `s`. -/
structure State.Lawful (s t : State) : Prop where
  array : InvArray s → InvArray t
  queues : InvQueues s → InvQueues t
  ports : ∀ p, InvPort (s.sp p) → InvPort (t.sp p)
  buffer : InvBuffer s → InvBuffer t
  sequence : InvSequence s → InvSequence t

/-- What work within the part does: it is lawful, it leaves the controller, the settings, the region table, the array
interface and the scrub engine with its request alone, and in HALTED it sets nothing in progress where nothing was. -/
structure State.Works (s t : State) : Prop extends State.Lawful s t where
  acu : t.acu = s.acu
  cfg : t.cfg = s.cfg
  ctl : t.ctl = s.ctl
  aif : t.aif = s.aif
  sce : t.sce = s.sce
  scrubSlot : t.arb.slots.sc = s.arb.slots.sc
  bypass : t.arb.bypass = s.arb.bypass
  quiet : s.ctl.state = .halted → s.Quiet → t.Quiet

variable {s t u : State}

theorem State.Lawful.refl (s : State) : s.Lawful s := ⟨id, id, fun _ => id, id, id⟩

theorem State.Lawful.trans (h : s.Lawful t) (k : t.Lawful u) : s.Lawful u :=
  ⟨k.array ∘ h.array, k.queues ∘ h.queues, fun p => k.ports p ∘ h.ports p, k.buffer ∘ h.buffer, k.sequence ∘ h.sequence⟩

theorem State.Works.refl (s : State) : s.Works s := ⟨.refl s, rfl, rfl, rfl, rfl, rfl, rfl, rfl, fun _ => id⟩

theorem State.Works.trans (h : s.Works t) (k : t.Works u) : s.Works u where
  toLawful := h.toLawful.trans k.toLawful
  acu := k.acu.trans h.acu
  cfg := k.cfg.trans h.cfg
  ctl := k.ctl.trans h.ctl
  aif := k.aif.trans h.aif
  sce := k.sce.trans h.sce
  scrubSlot := k.scrubSlot.trans h.scrubSlot
  bypass := k.bypass.trans h.bypass
  quiet hs hq := k.quiet (by rw [h.ctl]; exact hs) (h.quiet hs hq)

/-! ### One block at a time -/

/-- The laws speak of six blocks. -/
theorem State.Lawful.of_blocks (harray : t.array = s.array) (hmb : t.mb = s.mb) (hppt : t.ppt = s.ppt) (hsp : ∀ p, t.sp p = s.sp p)
    (helog : t.elog = s.elog) : s.Lawful t where
  array := by simp only [InvArray, harray, imp_self]
  queues := by simp only [InvQueues, hppt, helog, imp_self]
  ports p := by simp only [hsp, imp_self]
  buffer := by simp only [InvBuffer, hmb, imp_self]
  sequence := by simp only [InvSequence, helog, imp_self]

theorem State.Lawful.setPpt {x : Ppt} (h : InvQueues s → x.prq.length ≤ 4 ∧ x.cq.length + x.exec.isSome.toNat ≤ 8) :
    s.Lawful (s.setPpt x) where
  array := id
  queues hq := ⟨(h hq).1, (h hq).2, hq.2.2⟩
  ports _ := id
  buffer := id
  sequence := id

theorem State.Lawful.setElog {x : ErrorLog} (hl : s.elog.records.length ≤ 8 → x.records.length ≤ 8)
    (hs : InvSequence s → InvSequence (s.setElog x)) : s.Lawful (s.setElog x) where
  array := id
  queues hq := ⟨hq.1, hq.2.1, hl hq.2.2⟩
  ports _ := id
  buffer := id
  sequence := hs

theorem State.Lawful.setMb {x : MergeBuffer} (h : InvBuffer s → InvBuffer (s.setMb x)) : s.Lawful (s.setMb x) :=
  ⟨id, id, fun _ => id, h, id⟩

theorem invPorts_iff : InvPorts s ↔ ∀ p, InvPort (s.sp p) :=
  ⟨fun h p => by cases p; exacts [h.1, h.2], fun h => ⟨h .sp0, h .sp1⟩⟩

theorem State.Lawful.setSp {p : SpId} {x : StreamPort} (h : InvPort (s.sp p) → InvPort x) : s.Lawful (s.setSp p x) where
  array := by simp only [InvArray, State.setSp_array, imp_self]
  queues := by simp only [InvQueues, State.setSp_ppt, State.setSp_elog, imp_self]
  ports q hq := by
    by_cases hqp : q = p
    · subst hqp
      rw [State.setSp_sp_same]
      exact h hq
    · rwa [State.setSp_sp_other _ hqp]
  buffer := by simp only [InvBuffer, State.setSp_mb, imp_self]
  sequence := by simp only [InvSequence, State.setSp_elog, imp_self]

theorem State.Works.setIrq (h : s.Works t) (x : Irq) : s.Works (t.setIrq x) :=
  h.trans ⟨.of_blocks rfl rfl rfl (fun _ => by simp) rfl, rfl, rfl, rfl, rfl, rfl, rfl, rfl, fun _ hq => hq⟩

/-- A request of another requester than the scrub engine comes or goes. -/
theorem State.Works.setSlot (h : s.Works t) {r : Requester} (hr : r ≠ .sc) (x : Option Request) :
    s.Works (t.setSlot r x) :=
  h.trans
    { toLawful := .of_blocks rfl rfl rfl (fun _ => by simp [State.setSlot]) rfl
      acu := rfl, cfg := rfl, ctl := rfl, aif := rfl, sce := rfl, bypass := rfl
      scrubSlot := t.arb.slots.put_other (q := .sc) hr.symm x
      quiet := fun _ hq => hq }

theorem State.Works.request (h : s.Works t) {r : Requester} (hr : r ≠ .sc) (k : AccessKind) (a : Addr) :
    s.Works (t.request r k a) :=
  h.setSlot hr _

theorem portRequester_ne_sc (q : Port) : portRequester q ≠ .sc := by cases q <;> decide

theorem State.Works.setPpt (h : s.Works t) {x : Ppt}
    (hq : InvQueues t → x.prq.length ≤ 4 ∧ x.cq.length + x.exec.isSome.toNat ≤ 8)
    (hx : t.ctl.state = .halted → t.ppt.exec = none → x.exec = none) : s.Works (t.setPpt x) :=
  h.trans
    { toLawful := .setPpt hq
      acu := rfl, cfg := rfl, ctl := rfl, aif := rfl, sce := rfl, scrubSlot := rfl, bypass := rfl
      quiet := fun hs hquiet => ⟨hx hs hquiet.1, hquiet.2⟩ }

theorem State.Works.setElog (h : s.Works t) {x : ErrorLog} (hl : t.elog.records.length ≤ 8 → x.records.length ≤ 8)
    (hs : InvSequence t → InvSequence (t.setElog x)) : s.Works (t.setElog x) :=
  h.trans ⟨.setElog hl hs, rfl, rfl, rfl, rfl, rfl, rfl, rfl, fun _ hq => hq⟩

theorem State.Works.setMb (h : s.Works t) {x : MergeBuffer} (hb : InvBuffer t → InvBuffer (t.setMb x)) :
    s.Works (t.setMb x) :=
  h.trans ⟨.setMb hb, rfl, rfl, rfl, rfl, rfl, rfl, rfl, fun _ hq => hq⟩

theorem State.Works.setWlt (h : s.Works t) {x : List LockEntry} (hx : t.Quiet → x = []) : s.Works (t.setWlt x) :=
  h.trans
    ⟨.of_blocks rfl rfl rfl (fun _ => by simp) rfl, rfl, rfl, rfl, rfl, rfl, rfl, rfl, fun _ hq => ⟨hq.1, hq.2.1, hx hq⟩⟩

theorem State.Works.setSp (h : s.Works t) {p : SpId} {x : StreamPort} (hp : InvPort (t.sp p) → InvPort x)
    (hx : t.ctl.state = .halted → (t.sp p).burst = none → x.burst = none) : s.Works (t.setSp p x) := by
  refine h.trans ⟨.setSp hp, by simp, by simp, by simp, by simp, by simp, by simp, by simp, fun hs hq => ⟨?_, fun q => ?_, ?_⟩⟩
  · rw [State.setSp_ppt]
    exact hq.1
  · by_cases hqp : q = p
    · subst hqp
      rw [State.setSp_sp_same]
      exact hx hs (hq.2.1 q)
    · rw [State.setSp_sp_other _ hqp]
      exact hq.2.1 q
  · rw [State.setSp_wlt]
    exact hq.2.2

/-! ### The error log (R175 to R177, R182) -/

/-- A count or a flag of the log is outside the numbering law. -/
theorem InvSequence.of_records (h : InvSequence s) (hr : t.elog.records = s.elog.records) (hc : t.elog.seq = s.elog.seq) :
    InvSequence t := by
  unfold InvSequence
  rw [hr, hc]
  exact h

theorem counterAfter_of_ne {base c : Reg16} (h : c ≠ base) : counterAfter base c = seqAfter base c := if_neg h

@[simp] theorem counterAfter_self (base : Reg16) : counterAfter base base = 65536 := if_pos rfl

@[simp] theorem seqAfter_self (base : Reg16) : seqAfter base base = 0 := by simp [seqAfter]

/-- The counter's next value lies one further on, 65536 standing for once round. -/
theorem counterAfter_succ {base c : Reg16} (h : c ≠ base) : counterAfter base (c + 1) = counterAfter base c + 1 := by
  rw [counterAfter_of_ne h, counterAfter, seqAfter, seqAfter]
  split
  · bv_omega
  · bv_omega

/-- A kept record's number follows all that are held, and the counter goes one on (R176). -/
theorem InvSequence.append {x y : ErrorLog} {r : ErrorRecord} (h : InvSequence (s.setElog x))
    (hlen : x.records.length < 8) (hrec : y.records = x.records ++ [{ r with seq := x.seq }])
    (hseq : y.seq = x.seq + 1) : InvSequence (s.setElog y) := by
  unfold InvSequence at h ⊢
  simp only [State.setElog_elog] at h ⊢
  rw [hrec, hseq]
  cases hx : x.records with
  | nil =>
    have hne : x.seq + 1#16 ≠ x.seq := by bv_omega
    have hone : counterAfter x.seq (x.seq + 1#16) = 1 := by
      rw [counterAfter_of_ne hne, seqAfter]
      bv_omega
    simp [hone]
  | cons oldest rest =>
    rw [hx] at h hlen
    simp only at h
    obtain ⟨hrise, hbelow, -, hroom⟩ := h
    have hne : x.seq ≠ oldest.seq := by
      intro heq
      rw [heq, counterAfter_self] at hroom
      simp only [List.length_cons] at hroom hlen
      omega
    have hcounter := counterAfter_succ hne
    have hlast : seqAfter oldest.seq x.seq = counterAfter oldest.seq x.seq := (counterAfter_of_ne hne).symm
    simp only [List.cons_append, List.length_cons, List.length_append, List.length_nil] at hroom hlen ⊢
    refine ⟨?_, ?_, by omega, by omega⟩
    · rw [← List.cons_append, List.map_append, List.pairwise_append]
      refine ⟨hrise, by simp, fun a ha b hb => ?_⟩
      obtain ⟨z, hz, rfl⟩ := List.mem_map.1 ha
      simp only [List.map_cons, List.map_nil, List.mem_singleton] at hb
      rw [hb, hlast]
      exact hbelow z hz
    · intro z hz
      rw [← List.cons_append] at hz
      rcases List.mem_append.1 hz with hz | hz
      · have := hbelow z hz
        omega
      · rw [List.mem_singleton.1 hz]
        show seqAfter oldest.seq x.seq < _
        omega

/-- A dropped record's number is passed over, but while the counter equals the oldest record's (R176). -/
theorem InvSequence.advance {x y : ErrorLog} (h : InvSequence (s.setElog x)) (hlen : 8 ≤ x.records.length)
    (hrec : y.records = x.records)
    (hseq : y.seq = x.seq ∨ ∀ oldest, x.records.head? = some oldest → x.seq ≠ oldest.seq ∧ y.seq = x.seq + 1) :
    InvSequence (s.setElog y) := by
  unfold InvSequence at h ⊢
  simp only [State.setElog_elog] at h ⊢
  rw [hrec]
  cases hx : x.records with
  | nil => trivial
  | cons oldest rest =>
    rw [hx] at h hlen hseq
    simp only at h ⊢
    obtain ⟨hrise, hbelow, hheld, hroom⟩ := h
    rcases hseq with hsame | hnext
    · rw [hsame]
      exact ⟨hrise, hbelow, hheld, hroom⟩
    · obtain ⟨hne, hsucc⟩ := hnext oldest rfl
      have hcounter := counterAfter_succ hne
      have hshort : counterAfter oldest.seq x.seq < 65536 := by
        rw [counterAfter_of_ne hne]
        exact (x.seq - oldest.seq).isLt
      rw [hsucc]
      refine ⟨hrise, fun z hz => ?_, hheld, by omega⟩
      have := hbelow z hz
      omega

theorem State.Works.logRecord (h : s.Works t) (r : ErrorRecord) : s.Works (t.logRecord r) := by
  by_cases h8 : t.elog.records.length < 8
  · rw [State.logRecord_kept t r h8]
    refine h.setElog (fun _ => ?_) fun hs => InvSequence.append (x := t.elog) hs h8 rfl rfl
    simp only [List.length_append, List.length_cons, List.length_nil]
    omega
  · rw [State.logRecord_dropped t r (by omega)]
    refine h.setElog id fun hs => InvSequence.advance (x := t.elog) hs (by omega) rfl ?_
    dsimp only
    split
    · exact .inl rfl
    · rename_i hne
      refine .inr fun oldest hold => ⟨fun heq => hne ?_, rfl⟩
      simp [hold, heq]

theorem State.Works.countOutcome (h : s.Works t) (o : DecodeOutcome) : s.Works (t.countOutcome o) := by
  cases o with
  | clean => exact h
  | corrected pos => exact h.setElog id fun hs => hs.of_records rfl rfl
  | uncorrectable => exact h.setElog id fun hs => hs.of_records rfl rfl

theorem State.Works.recordOutcome (h : s.Works t) (o : DecodeOutcome) (r : ErrorRecord) :
    s.Works (t.recordOutcome o r) := by
  unfold State.recordOutcome
  split
  · exact h
  · split
    · exact h.logRecord _
    · exact h
  · exact h.logRecord _

theorem State.Works.reportRead (h : s.Works t) (o : DecodeOutcome) (src : Source) (a : Addr) (k : AccessType)
    (g : Option Tag) : s.Works (t.reportRead o src a k g) :=
  (h.countOutcome o).recordOutcome o _

theorem State.Works.logFault (h : s.Works t) (k : RecordKind) (q : Port) (a : Addr) (x : AccessType) (g : Tag) :
    s.Works (t.logFault k q a x g) :=
  h.logRecord _

/-! ### The processor port (R115, R122) -/

theorem State.Works.setPpPhase (h : s.Works t) (ph : PpPhase) : s.Works (t.setPpPhase ph) := by
  unfold State.setPpPhase
  split
  · exact h
  · rename_i x hx
    refine h.setPpt (fun hq => ⟨hq.1, ?_⟩) fun _ hnone => ?_
    · simpa [hx] using hq.2.1
    · simp [hx] at hnone

theorem State.Works.ppComplete (h : s.Works t) (st : CplStatus) (d : Word) : s.Works (t.ppComplete st d) := by
  unfold State.ppComplete
  split
  · exact h
  · rename_i x hx
    refine h.setPpt (fun hq => ⟨hq.1, ?_⟩) fun _ _ => rfl
    simpa [hx] using hq.2.1

/-! ### One stream port (R128, R132, R135, R137) -/

/-- The credit law of a port speaks of its state, its queue, its credits and the header that executes. -/
theorem InvPort.of_fields {x y : StreamPort} (h : InvPort x) (hstate : y.state = x.state) (hsrq : y.srq = x.srq)
    (hcredits : y.credits = x.credits) (hburst : y.burst.map (·.hdr) = x.burst.map (·.hdr)) : InvPort y := by
  have hsome : y.burst.isSome = x.burst.isSome := by simpa using congrArg Option.isSome hburst
  have hnone : y.burst = none ↔ x.burst = none := by
    rw [← Option.not_isSome_iff_eq_none, ← Option.not_isSome_iff_eq_none, hsome]
  refine ⟨fun b hb => ?_, ?_⟩
  · have hx : x.burst.map (·.hdr) = some b.hdr := by rw [← hburst, hb]; rfl
    obtain ⟨c, hc, hcb⟩ := Option.map_eq_some_iff.1 hx
    rw [hsrq, h.1 c hc, hcb]
  · have h2 := h.2
    rw [hstate]
    cases hs : x.state <;> rw [hs] at h2 <;> simpa only [hsrq, hcredits, hsome, hnone] using h2

/-- A port's messages, its link, its timer and its settings are outside its law. -/
theorem State.Works.setSpFields (h : s.Works t) {p : SpId} {x : StreamPort} (hstate : x.state = (t.sp p).state)
    (hsrq : x.srq = (t.sp p).srq) (hcredits : x.credits = (t.sp p).credits)
    (hburst : x.burst.map (·.hdr) = (t.sp p).burst.map (·.hdr)) : s.Works (t.setSp p x) :=
  h.setSp (fun hp => hp.of_fields hstate hsrq hcredits hburst) fun _ hnone => by
    rw [hnone] at hburst
    simpa using hburst

theorem State.Works.send (h : s.Works t) (p : SpId) (ms : List LinkMsg) : s.Works (t.send p ms) :=
  h.setSpFields rfl rfl rfl rfl

/-- The burst that executes may change everything but its header. -/
theorem State.Works.setBurst (h : s.Works t) {p : SpId} {b c : Burst} (hb : (t.sp p).burst = some b)
    (hc : c.hdr = b.hdr) : s.Works (t.setBurst p (some c)) :=
  h.setSpFields rfl rfl rfl (by simp [hb, hc])

theorem State.Works.holdBurst (h : s.Works t) {p : SpId} {b : Burst} (hb : (t.sp p).burst = some b) (ph : BurstPhase)
    (k : HoldAt) : s.Works (t.holdBurst p b ph k) :=
  h.setBurst hb rfl

theorem State.Works.awaitBeat (h : s.Works t) {p : SpId} {b c : Burst} (hb : (t.sp p).burst = some b)
    (hc : c.hdr = b.hdr) (ph : BurstPhase) : s.Works (t.awaitBeat p c ph) :=
  h.setSpFields rfl rfl rfl (by simp [hb, hc])

/-- The END of the executing burst takes its header from the queue and gives its credit back (R137). -/
theorem InvPort.ended {x : StreamPort} {b : Burst} (h : InvPort x) (hb : x.burst = some b) (g : Tag) (st : EndStatus)
    (n : Nat) : InvPort (x.ended g st n) := by
  obtain ⟨hhead, hcount⟩ := h
  have hlen : x.srq.length = x.srq.tail.length + 1 := by
    cases hq : x.srq with
    | nil => simp [hq] at hhead; exact absurd hb (hhead b)
    | cons => rfl
  refine ⟨fun c hc => by simp [StreamPort.ended] at hc, ?_⟩
  cases hs : x.state with
  | disabled =>
    simp only [hs] at hcount
    simp [hb] at hcount
  | enabled | suspended =>
    simp only [hs] at hcount
    simp only [StreamPort.ended, hs]
    omega
  | disabling =>
    simp only [hs] at hcount
    have hnil : x.srq.tail = [] := List.eq_nil_of_length_eq_zero (by omega)
    simp only [StreamPort.ended, hs]
    exact ⟨hcount.1, hnil, trivial⟩

theorem State.Works.endBurst (h : s.Works t) (p : SpId) (st : EndStatus) : s.Works (t.endBurst p st) := by
  cases hb : (t.sp p).burst with
  | none => rwa [State.endBurst_none hb]
  | some b =>
    rw [State.endBurst_eq_ended hb]
    exact h.setSp (fun hp => hp.ended hb _ _ _) fun _ _ => rfl

theorem InvPort.stopped {x : StreamPort} (h : InvPort x) (c : SuspendCause) : InvPort (x.stopped c) := by
  obtain ⟨hhead, hcount⟩ := h
  unfold StreamPort.stopped
  cases hs : x.state <;> simp only [hs] at hcount
  · exact ⟨hhead, by simpa [hs] using hcount⟩
  · exact ⟨hhead, hcount⟩
  · exact ⟨hhead, hcount⟩
  · exact ⟨hhead, by simpa [hs] using hcount⟩

theorem State.Works.suspend (h : s.Works t) (p : SpId) (c : SuspendCause) : s.Works (t.suspend p c) := by
  rw [State.suspend_eq_stopped]
  refine h.setSp (fun hp => hp.stopped c) fun _ hnone => ?_
  unfold StreamPort.stopped
  split <;> exact hnone

end Sys2Proof.Machine
end

section
/-! The merge buffer, the lock table and the ports under the laws: every operation of work within the part is one of
`State.Works` (chapters 02, 03, 06 and 07). -/

namespace Sys2Proof.Machine

variable {s t : State}

/-! ### The merge buffer's entries (R18, R19, R32) -/

/-- The drain engine has an entry in every phase but IDLE, in the state of Table 2-4. -/
def MergeBuffer.DrainLaw (mb : MergeBuffer) : Prop :=
  match mb.drain.entry with
  | none => mb.drain.phase = .idle
  | some e => drainFits mb.drain.phase (mb.entry e).state

theorem MergeBuffer.drainLaw_none {mb : MergeBuffer} (h : mb.drain = { phase := .idle, entry := none }) :
    mb.DrainLaw := by
  unfold MergeBuffer.DrainLaw
  rw [h]

theorem MergeBuffer.drainLaw_some {mb : MergeBuffer} {ph : DrainPhase} {e : Fin 8}
    (h : mb.drain = { phase := ph, entry := some e }) (hf : drainFits ph (mb.entry e).state) : mb.DrainLaw := by
  unfold MergeBuffer.DrainLaw
  rw [h]
  exact hf

/-- The law goes by the states of the entries. -/
theorem MergeBuffer.DrainLaw.of_states {mb nb : MergeBuffer} (h : mb.DrainLaw) (hd : nb.drain = mb.drain)
    (hs : ∀ e, (nb.entry e).state = (mb.entry e).state) : nb.DrainLaw := by
  unfold MergeBuffer.DrainLaw at h ⊢
  rw [hd]
  cases he : mb.drain.entry with
  | none => simpa only [he] using h
  | some e => simpa only [he, hs] using h

theorem InvBuffer.drainLaw (h : InvBuffer s) : s.mb.DrainLaw := h.2.2.2

/-- The phase and the entry's state go together. -/
theorem InvBuffer.fits (h : InvBuffer s) {e : Fin 8} (he : s.mb.drain.entry = some e) :
    drainFits s.mb.drain.phase (s.mb.entry e).state := by
  have := h.drainLaw
  unfold MergeBuffer.DrainLaw at this
  simpa only [he] using this

theorem Entry.active_iff {x : Entry} : x.active = true ↔ x.state ≠ .free := by simp [Entry.active]

/-- The drain engine's entry is not FREE. -/
theorem InvBuffer.active_of_drain (h : InvBuffer s) {e : Fin 8} (he : s.mb.drain.entry = some e) :
    (s.mb.entry e).active = true := by
  have hf := h.fits he
  rw [Entry.active_iff]
  intro hfree
  rw [hfree] at hf
  cases hp : s.mb.drain.phase <;> simp [hp, drainFits] at hf

/-- Entries may change what they hold, but not their word nor whether they are FREE. -/
theorem InvBuffer.of_entries (h : InvBuffer s) {mb : MergeBuffer}
    (hactive : ∀ f, (mb.entry f).active = (s.mb.entry f).active) (haddr : ∀ f, (mb.entry f).addr = (s.mb.entry f).addr)
    (hage : mb.age = s.mb.age) (hdrain : mb.DrainLaw) : InvBuffer (s.setMb mb) := by
  refine ⟨fun e f he hf ha => h.1 e f ?_ ?_ ?_, ?_, fun e => ?_, hdrain⟩
  · rwa [← hactive e]
  · rwa [← hactive f]
  · rw [← haddr e, ← haddr f]
    exact ha
  · show mb.age.Nodup
    rw [hage]
    exact h.2.1
  · show e ∈ mb.age ↔ (mb.entry e).active = true
    rw [hage, hactive]
    exact h.2.2.1 e

/-- One entry changes what it holds. -/
theorem InvBuffer.setEntry (h : InvBuffer s) {mb : MergeBuffer} {e : Fin 8} {x : Entry}
    (hx : x.active = (s.mb.entry e).active) (ha : x.addr = (s.mb.entry e).addr)
    (hentries : mb.entries = (s.mb.setEntry e x).entries) (hage : mb.age = s.mb.age) (hdrain : mb.DrainLaw) :
    InvBuffer (s.setMb mb) := by
  have hentry : ∀ f, mb.entry f = (s.mb.setEntry e x).entry f := fun f => by
    unfold MergeBuffer.entry
    rw [hentries]
  refine h.of_entries (fun f => ?_) (fun f => ?_) hage hdrain
  all_goals
    rw [hentry]
    by_cases hf : f = e
    · subst hf
      rw [MergeBuffer.setEntry_same]
      assumption
    · rw [MergeBuffer.setEntry_other _ hf]

theorem Entry.active_of_state {x y : Entry} (h : x.state = y.state) : x.active = y.active := by
  simp only [Entry.active, h]

/-- One entry changes what it holds and keeps its state. -/
theorem InvBuffer.setEntry_of_state (h : InvBuffer s) {e : Fin 8} {x : Entry} (hx : x.state = (s.mb.entry e).state)
    (ha : x.addr = (s.mb.entry e).addr) : InvBuffer (s.setMb (s.mb.setEntry e x)) := by
  refine h.setEntry (Entry.active_of_state hx) ha rfl rfl (h.drainLaw.of_states rfl fun f => ?_)
  by_cases hf : f = e
  · subst hf
    rw [MergeBuffer.setEntry_same, hx]
  · rw [MergeBuffer.setEntry_other _ hf]

/-- One entry, not FREE, changes what it holds and its state with the drain engine's phase. -/
theorem InvBuffer.setEntry_drain (h : InvBuffer s) {mb : MergeBuffer} {e : Fin 8} {x : Entry} {ph : DrainPhase}
    (he : (s.mb.entry e).active = true) (ha : x.addr = (s.mb.entry e).addr) (hf : drainFits ph x.state)
    (hentries : mb.entries = (s.mb.setEntry e x).entries) (hage : mb.age = s.mb.age)
    (hdrain : mb.drain = { phase := ph, entry := some e }) : InvBuffer (s.setMb mb) := by
  have hentry : mb.entry e = x := by
    unfold MergeBuffer.entry
    rw [hentries]
    exact s.mb.setEntry_same e x
  have hx : x.active = true := by
    rw [Entry.active_iff]
    intro hfree
    rw [hfree] at hf
    cases ph <;> simp [drainFits] at hf
  exact h.setEntry (hx.trans he.symm) ha hentries hage (MergeBuffer.drainLaw_some hdrain (by rwa [hentry]))

/-- An entry leaves the buffer, the drain engine's only when the engine is IDLE after it (R19, R39, R42). -/
theorem InvBuffer.release (h : InvBuffer s) {mb : MergeBuffer} {e : Fin 8}
    (hentries : mb.entries = (s.mb.release e).entries) (hage : mb.age = (s.mb.release e).age) (hdrain : mb.DrainLaw) :
    InvBuffer (s.setMb mb) := by
  have hentry : ∀ f, mb.entry f = (s.mb.setEntry e Entry.default).entry f := fun f => by
    unfold MergeBuffer.entry
    rw [hentries]
    rfl
  have hother : ∀ f, (mb.entry f).active = true → f ≠ e ∧ mb.entry f = s.mb.entry f := fun f hf => by
    rw [hentry] at hf ⊢
    by_cases hfe : f = e
    · subst hfe
      rw [MergeBuffer.setEntry_same] at hf
      exact absurd hf (by decide)
    · exact ⟨hfe, MergeBuffer.setEntry_other _ hfe _⟩
  refine ⟨fun f g hf hg ha => ?_, ?_, fun f => ?_, hdrain⟩
  · have hf : (mb.entry f).active = true := hf
    have hg : (mb.entry g).active = true := hg
    have ha : (mb.entry f).addr = (mb.entry g).addr := ha
    have hfs := (hother f hf).2
    have hgs := (hother g hg).2
    rw [hfs] at hf ha
    rw [hgs] at hg ha
    exact h.1 f g hf hg ha
  · show mb.age.Nodup
    rw [hage]
    exact h.2.1.filter _
  · show f ∈ mb.age ↔ (mb.entry f).active = true
    rw [hage]
    show f ∈ s.mb.age.filter (· != e) ↔ _
    rw [List.mem_filter, h.2.2.1 f]
    constructor
    · rintro ⟨hf, hne⟩
      rw [hentry, MergeBuffer.setEntry_other _ (by simpa using hne)]
      exact hf
    · intro hf
      obtain ⟨hne, heq⟩ := hother f hf
      exact ⟨heq ▸ hf, by simpa using hne⟩

/-! ### Merge writes (R20 to R28) -/

theorem State.Works.mbCoalesce (h : s.Works t) (e : Fin 8) (m : MergeWrite) : s.Works (t.mbCoalesce e m) := by
  unfold State.mbCoalesce
  dsimp only
  split
  · rename_i hc
    obtain ⟨hphase, hentry, hmask⟩ := hc
    refine (h.setMb fun hb => ?_).request (by decide) _ _
    have hf := hb.fits hentry
    rw [hphase] at hf
    refine hb.setEntry_drain (x := (t.mb.entry e).coalesce m) (ph := .writeWait) (hb.active_of_drain hentry) rfl hf rfl
      rfl ?_
    simp only [hentry]
  · exact h.setMb fun hb => hb.setEntry_of_state rfl rfl

/-- A word that no entry is found for is no non-FREE entry's. -/
theorem MergeBuffer.not_holds_of_entryFor {mb : MergeBuffer} {w : Addr} (h : mb.entryFor w = none) (e : Fin 8) :
    (mb.entry e).active = true → (mb.entry e).addr ≠ w := by
  rw [MergeBuffer.entryFor, List.find?_eq_none] at h
  have := h e (mem_entryIds e)
  intro hactive
  simpa [Entry.holds, hactive] using this

theorem MergeBuffer.firstFree_some {mb : MergeBuffer} {e : Fin 8} (h : mb.firstFree = some e) :
    (mb.entry e).state = .free := by
  simpa using List.find?_some h

/-- A FREE entry takes a new word and is the youngest (R19, R25). -/
theorem InvBuffer.allocate (h : InvBuffer s) {e : Fin 8} {m : MergeWrite} (hfree : (s.mb.entry e).state = .free)
    (hnew : s.mb.entryFor m.addr = none) : InvBuffer (s.mbAllocate e m) := by
  have hinactive : (s.mb.entry e).active = false := by simp [Entry.active, hfree]
  have hsame : ((s.mbAllocate e m).mb.entry e) = Entry.allocated m := s.mb.setEntry_same e _
  have hother : ∀ f, f ≠ e → ((s.mbAllocate e m).mb.entry f) = s.mb.entry f := fun f hf =>
    MergeBuffer.setEntry_other _ hf _
  have hage : (s.mbAllocate e m).mb.age = s.mb.age ++ [e] := rfl
  refine ⟨fun f g hf hg ha => ?_, ?_, fun f => ?_, ?_⟩
  · by_cases hfe : f = e <;> by_cases hge : g = e
    · rw [hfe, hge]
    · rw [hfe, hsame, hother g hge] at ha
      rw [hother g hge] at hg
      exact absurd ha.symm (MergeBuffer.not_holds_of_entryFor hnew g hg)
    · rw [hge, hsame, hother f hfe] at ha
      rw [hother f hfe] at hf
      exact absurd ha (MergeBuffer.not_holds_of_entryFor hnew f hf)
    · rw [hother f hfe, hother g hge] at ha
      rw [hother f hfe] at hf
      rw [hother g hge] at hg
      exact h.1 f g hf hg ha
  · rw [hage]
    refine List.Nodup.append h.2.1 (by simp) ?_
    rw [List.disjoint_singleton, h.2.2.1, hinactive]
    decide
  · rw [hage, List.mem_append, h.2.2.1, List.mem_singleton]
    by_cases hfe : f = e
    · subst hfe
      simp [hsame, Entry.allocated, Entry.active]
    · rw [hother f hfe]
      simp [hfe]
  · have hd := h.drainLaw
    show (s.mbAllocate e m).mb.DrainLaw
    unfold MergeBuffer.DrainLaw at hd ⊢
    show match s.mb.drain.entry with
      | none => s.mb.drain.phase = .idle
      | some f => drainFits s.mb.drain.phase ((s.mbAllocate e m).mb.entry f).state
    cases hf : s.mb.drain.entry with
    | none => simpa only [hf] using hd
    | some f =>
      have hfe : f ≠ e := by
        rintro rfl
        have := h.active_of_drain hf
        rw [hinactive] at this
        cases this
      simp only [hf] at hd
      simpa only [hother f hfe] using hd

/-- The fields of the buffer beside its entries, its age list and the drain engine are outside its laws. -/
theorem State.Works.setMbFields (h : s.Works t) {mb : MergeBuffer} (hentries : mb.entries = t.mb.entries)
    (hage : mb.age = t.mb.age) (hdrain : mb.drain = t.mb.drain) : s.Works (t.setMb mb) := by
  have hentry : ∀ f, mb.entry f = t.mb.entry f := fun f => by
    unfold MergeBuffer.entry
    rw [hentries]
  exact h.setMb fun hb => hb.of_entries (fun f => by rw [hentry]) (fun f => by rw [hentry]) hage
    (hb.drainLaw.of_states hdrain fun f => by rw [hentry])

theorem State.Works.mbWait (h : s.Works t) (m : MergeWrite) : s.Works (t.mbWait m) := by
  have hwaits : s.Works (t.setMb { t.mb with waiting := t.mb.waiting ++ [m] }) := h.setMbFields rfl rfl rfl
  unfold State.mbWait
  dsimp only
  split
  · exact hwaits.setIrq _
  · exact hwaits

theorem State.Works.mbHold (h : s.Works t) (m : MergeWrite) : s.Works (t.mbHold m) := h.setMbFields rfl rfl rfl

theorem State.Works.mbOffer (h : s.Works t) (m : MergeWrite) : s.Works (t.mbOffer m).2 := by
  unfold State.mbOffer
  split_ifs
  · exact h.mbHold m
  · exact h
  · split
    · split
      · exact h
      · exact h.mbCoalesce _ m
    · rename_i hnew
      split
      · rename_i e hfree
        exact h.setMb fun hb => hb.allocate (MergeBuffer.firstFree_some hfree) hnew
      · exact h.mbWait m

theorem State.Works.beatAccepted (h : s.Works t) (p : SpId) : s.Works (t.beatAccepted p) := by
  unfold State.beatAccepted
  split
  · exact h
  · rename_i b hb
    dsimp only
    split
    · refine .endBurst ?_ p _
      exact h.setBurst hb rfl
    · exact h.awaitBeat (c := { b with done := b.done + 1 }) hb rfl _

theorem State.Works.mbTell (h : s.Works t) (q : Port) (a : MbAnswer) : s.Works (t.mbTell q a) := by
  unfold State.mbTell
  split
  · exact h
  · exact h.ppComplete _ _
  · exact h.ppComplete _ _
  · exact h.beatAccepted _
  · exact h.endBurst _ _

theorem State.Works.mergeIssue (h : s.Works t) (m : MergeWrite) : s.Works (t.mergeIssue m) := (h.mbOffer m).mbTell _ _

theorem State.Works.mergeWithdraw (h : s.Works t) (q : Port) : s.Works (t.mergeWithdraw q) := h.setMbFields rfl rfl rfl

/-! ### The word lock table (R54 to R70) -/

theorem State.Works.answerAtomic (h : s.Works t) (p : SpId) (g : Tag) (r : LockResult) :
    s.Works (t.answerAtomic p g r) := by
  unfold State.answerAtomic
  split
  · exact h
  · rename_i b hb
    split
    · exact h.endBurst p _
    · have hsent := (h.send p [.readBeat g r.old r.outcome.beatStatus]).setBurst (p := p) (b := b)
        (c := { b with done := 1 }) (by simpa [State.send] using hb) rfl
      dsimp only
      split
      · exact (hsent.suspend p _).endBurst p _
      · exact hsent.endBurst p _

theorem State.Works.deliver (h : s.Works t) (e : LockEntry) (r : LockResult) : s.Works (t.deliver e r) := by
  unfold State.deliver
  split
  · exact h
  · split
    · exact h.ppComplete _ _
    · exact h.answerAtomic _ _ _

theorem State.Works.eraseLock (h : s.Works t) (q : Port) : s.Works (t.eraseLock q) :=
  h.setWlt fun hq => by simp [hq.2.2]

theorem State.Works.setLockState (h : s.Works t) (q : Port) (st : LockState) : s.Works (t.setLockState q st) :=
  h.setWlt fun hq => by simp [hq.2.2]

theorem State.Works.releaseHeldAtomic (h : s.Works t) (w : Addr) : s.Works (t.releaseHeldAtomic w) := by
  unfold State.releaseHeldAtomic
  split
  · exact h
  · split
    · exact h.setPpPhase _
    · exact h

theorem State.Works.lockNext (n : Nat) (w : Addr) (h : s.Works t) : s.Works (State.lockNext n w t) := by
  induction n generalizing t with
  | zero => exact h
  | succ n ih =>
    unfold State.lockNext
    split
    · exact h.releaseHeldAtomic w
    · split
      · exact h
      · split
        · exact h.setLockState _ _
        · refine .setLockState ?_ _ _
          exact h.setMb fun hb => hb.setEntry_of_state rfl rfl
        · exact ih ((h.eraseLock _).deliver _ _)

theorem State.Works.aeUpdate (h : s.Works t) : s.Works t.aeUpdate := by
  unfold State.aeUpdate
  split_ifs
  · exact h.setSlot (by decide) _
  · exact h
  · exact h.setSlot (by decide) _
  · exact h

/-- A lock entry is created for something that is in progress (R56, R57). -/
theorem State.Works.createLock (h : s.Works t) (hbusy : ¬ t.Quiet) (e : LockEntry) : s.Works (t.createLock e) := by
  unfold State.createLock
  split
  · exact h
  · exact (State.Works.lockNext _ _ (h.setWlt fun hq => absurd hq hbusy)).aeUpdate

theorem State.Works.removeLock (h : s.Works t) (e : LockEntry) (r : Option LockResult) :
    s.Works (t.removeLock e r) := by
  have hleft : s.Works (t.afterRemoval e r) := by
    cases r with
    | none => exact h.eraseLock _
    | some r => exact (h.eraseLock _).deliver _ _
  rw [State.removeLock_eq]
  exact (State.Works.lockNext _ _ hleft).aeUpdate

theorem State.Works.cancelLock (h : s.Works t) (q : Port) : s.Works (t.cancelLock q) := by
  unfold State.cancelLock
  split
  · exact h
  · split
    · exact h.setWlt fun hq => by simp [hq.2.2]
    · exact h.removeLock _ _

/-! ### The processor port (R115 to R121) -/

theorem State.Works.ppLookup (h : s.Works t) (r : PpRequest) : s.Works (t.ppLookup r) := by
  unfold State.ppLookup
  split
  · exact h.ppComplete _ _
  · exact (h.setPpPhase _).request (by decide) _ _

/-- While a request executes the part is not quiet, at whatever step the request stands. -/
theorem State.not_quiet_of_exec {x : PpExec} (hx : t.ppt.exec = some x) (ph : PpPhase) : ¬ (t.setPpPhase ph).Quiet := by
  rw [State.setPpPhase_some hx]
  exact fun hq => by cases hq.1

theorem State.Works.ppLockStep (h : s.Works t) {x : PpExec} (hx : t.ppt.exec = some x) (r : PpRequest) :
    s.Works (t.ppLockStep r) := by
  unfold State.ppLockStep
  split
  · split
    · exact h.setPpPhase _
    · exact h.ppLookup r
  · exact (h.setPpPhase _).mergeIssue _
  · split
    · exact h.setPpPhase _
    · exact (h.setPpPhase _).createLock (State.not_quiet_of_exec hx _) _
  · exact h

theorem State.Works.ppFenceStep (h : s.Works t) {x : PpExec} (hx : t.ppt.exec = some x) (r : PpRequest) :
    s.Works (t.ppFenceStep r) := by
  unfold State.ppFenceStep
  split
  · exact h.setPpPhase _
  · exact h.ppLockStep hx r

/-- A FLUSH marks entries and keeps their states (R45). -/
theorem InvBuffer.flushStart (h : InvBuffer s) : InvBuffer (s.setMb s.mb.flushStart) := by
  have hentry : ∀ f, s.mb.flushStart.entry f = (s.mb.entry f).flushMark := fun f => by
    simp [MergeBuffer.entry, MergeBuffer.flushStart]
  have hmark : ∀ x : Entry, x.flushMark.state = x.state ∧ x.flushMark.addr = x.addr := fun x => by
    unfold Entry.flushMark
    split <;> exact ⟨rfl, rfl⟩
  refine h.of_entries (fun f => ?_) (fun f => ?_) rfl (h.drainLaw.of_states rfl fun f => ?_)
  · rw [hentry]
    exact Entry.active_of_state (hmark _).1
  · rw [hentry]
    exact (hmark _).2
  · rw [hentry]
    exact (hmark _).1

theorem State.Works.ppStart (h : s.Works t) {x : PpExec} (hx : t.ppt.exec = some x) (r : PpRequest) :
    s.Works (t.ppStart r) := by
  unfold State.ppStart
  split
  · exact (h.logFault _ _ _ _ _).ppComplete _ _
  · split
    · exact (h.setMb fun hb => hb.flushStart).setPpPhase _
    · exact h.ppFenceStep hx r
    · exact h.ppFenceStep hx r
    · exact h.ppFenceStep hx r

/-- A dispatch takes the head of the PRQ, and a place in the Completion Queue is left for it (R115, R122). -/
theorem State.Works.prqDispatch (h : s.Works t) (hready : t.prqReady = true) : s.Works t.prqDispatch := by
  simp only [State.prqReady, Bool.and_eq_true, beq_iff_eq, decide_eq_true_eq] at hready
  obtain ⟨⟨⟨hrun, -⟩, hroom⟩, -⟩ := hready
  unfold State.prqDispatch
  split
  · exact h
  · rename_i r rest hprq
    refine State.Works.ppStart (h.setPpt (fun hq => ⟨?_, ?_⟩) fun hhalted => ?_) rfl r
    · have := hq.1
      rw [hprq, List.length_cons] at this
      exact Nat.le_of_succ_le this
    · exact hroom
    · rw [hrun] at hhalted
      cases hhalted

theorem State.Works.ppFenceRelease (h : s.Works t) : s.Works t.ppFenceRelease := by
  unfold State.ppFenceRelease
  split
  · rename_i x hx
    exact h.ppLockStep hx _
  · exact h

theorem State.Works.ppLockRelease (h : s.Works t) : s.Works t.ppLockRelease := by
  unfold State.ppLockRelease
  split
  · exact h
  · rename_i x hx
    split
    · exact (h.setPpPhase _).createLock (State.not_quiet_of_exec hx _) _
    · exact h.ppLockStep hx _
    · exact h.ppLockStep hx _
    · exact h.ppLockStep hx _

theorem State.Works.flushComplete (h : s.Works t) : s.Works t.flushComplete := by
  refine .ppComplete ?_ _ _
  exact h.setMbFields rfl rfl rfl

/-! ### The stream ports (chapter 07) -/

section
variable {p : SpId} {b : Burst}

theorem State.Works.readRequest (h : s.Works t) (hb : (t.sp p).burst = some b) : s.Works (t.readRequest p b) := by
  unfold State.readRequest
  dsimp only
  split
  · exact (h.holdBurst hb _ _).request (portRequester_ne_sc _) _ _
  · exact h.holdBurst hb _ _

/-- Messages leave the burst alone. -/
theorem State.send_burst (t : State) (p : SpId) (ms : List LinkMsg) : ((t.send p ms).sp p).burst = (t.sp p).burst := by
  rw [State.send, State.setSp_sp_same]

theorem State.Works.readWords (n : Nat) (p : SpId) (h : s.Works t) : s.Works (State.readWords n p t) := by
  induction n generalizing t with
  | zero => exact h
  | succ n ih =>
    unfold State.readWords
    split
    · exact h
    · rename_i b hb
      split_ifs
      · exact h.holdBurst hb _ _
      · exact h.holdBurst hb _ _
      · split
        · exact h.readRequest hb
        · rename_i d _
          have hsent := (h.send p [.readBeat b.hdr.tag d .clean]).setBurst (c := { b with done := b.done + 1 })
            ((t.send_burst p _).trans hb) rfl
          dsimp only
          split
          · exact hsent.endBurst p _
          · exact ih hsent

theorem State.Works.readOn (h : s.Works t) (p : SpId) : s.Works (t.readOn p) := State.Works.readWords 16 p h

theorem State.Works.readDelivered (h : s.Works t) (p : SpId) (d : Word) (o : DecodeOutcome) :
    s.Works (t.readDelivered p d o) := by
  unfold State.readDelivered
  split
  · exact h
  · rename_i b hb
    have hsent := (h.send p [.readBeat b.hdr.tag d o.beatStatus]).setBurst (c := { b with done := b.done + 1 })
      ((t.send_burst p _).trans hb) rfl
    dsimp only
    split_ifs
    · exact (hsent.suspend p _).endBurst p _
    · exact (hsent.suspend p _).endBurst p _
    · exact hsent.endBurst p _
    · exact hsent.endBurst p _
    · exact hsent.readOn p

theorem State.Works.takeWriteBeat (h : s.Works t) (hb : (t.sp p).burst = some b) (d : Word) (m : LaneMask) :
    s.Works (t.takeWriteBeat p b d m) := by
  unfold State.takeWriteBeat
  split
  · exact h.setBurst hb rfl
  · refine .mergeIssue ?_ _
    exact h.setBurst hb rfl

theorem State.Works.issueHeldBeat (h : s.Works t) (p : SpId) : s.Works (t.issueHeldBeat p) := by
  unfold State.issueHeldBeat
  split
  · exact h
  · rename_i b hb
    split
    · exact h
    · refine .mergeIssue ?_ _
      exact h.setBurst hb rfl

theorem State.Works.blockOperand (h : s.Works t) (p : SpId) : s.Works (t.blockOperand p) := by
  unfold State.blockOperand
  split
  · rename_i b _ hb
    split
    · exact h.setBurst hb rfl
    · exact h
  · exact h

theorem State.Works.admitAtomic (h : s.Works t) (p : SpId) : s.Works (t.admitAtomic p) := by
  unfold State.admitAtomic
  split
  · exact h
  · rename_i b hb
    split_ifs
    · exact h.holdBurst hb _ _
    · exact h.holdBurst hb _ _
    · exact ((h.send p _).awaitBeat ((t.send_burst p _).trans hb) rfl _).blockOperand p

/-- The last operand creates the lock entry of the executing burst. -/
theorem State.Works.takeOperand (h : s.Works t) (hb : (t.sp p).burst = some b) (d : Word) :
    s.Works (t.takeOperand p b d) := by
  unfold State.takeOperand
  split
  · split
    · refine (h.holdBurst hb _ _).createLock (fun hq => ?_) _
      have := hq.2.1 p
      rw [State.holdBurst, State.setBurst, State.setSp_sp_same] at this
      cases this
    · exact h.awaitBeat (c := { b with opA := some d }) hb rfl _
  · exact h
  · exact h

/-- A header that has just become the burst is at its queue's head (R129). -/
theorem InvPort.started {x : StreamPort} {hd : Header} {rest : List Header} (h : InvPort x) (hstate : x.state = .enabled)
    (hsrq : x.srq = hd :: rest) : InvPort { x with burst := some hd.start } := by
  have h2 := h.2
  simp only [hstate] at h2
  refine ⟨fun b hb => ?_, by simpa only [hstate] using h2⟩
  cases hb
  simp [hsrq, Header.start]

theorem State.Works.srqDispatch (h : s.Works t) (hready : t.srqReady p = true) : s.Works (t.srqDispatch p) := by
  simp only [State.srqReady, Bool.and_eq_true, beq_iff_eq] at hready
  obtain ⟨⟨⟨hrun, henabled⟩, -⟩, -⟩ := hready
  unfold State.srqDispatch
  split
  · exact h
  · rename_i hd rest hsrq
    have hstart : s.Works (t.setBurst p (some hd.start)) :=
      h.setSp (fun hp => hp.started henabled hsrq) fun hhalted => by
        rw [hrun] at hhalted
        cases hhalted
    have hburst : ((t.setBurst p (some hd.start)).sp p).burst = some hd.start := by
      rw [State.setBurst, State.setSp_sp_same]
    dsimp only
    split
    · rename_i k a _
      have hended := (hstart.endBurst p (faultEndStatus k)).logFault k p.port a hd.op.access hd.tag
      split
      · exact hended.suspend p _
      · exact hended
    · split
      · exact hstart.readOn p
      · exact (hstart.send p _).awaitBeat ((State.send_burst _ p _).trans hburst) rfl _
      · exact hstart.admitAtomic p

theorem State.Works.refuseHeader (h : s.Works t) (p : SpId) (f : Frame) (c : ProtocolCause) :
    s.Works (t.refuseHeader p f c) :=
  ((h.send p _).logRecord _).suspend p _

/-- A header that passes the tests takes a credit and joins the queue (R139). -/
theorem InvPort.queued {x : StreamPort} (h : InvPort x) (hstate : x.state.credited = true) (hcredits : x.credits ≠ 0)
    (hd : Header) : InvPort { x with credits := x.credits - 1, srq := x.srq ++ [hd] } := by
  obtain ⟨hhead, hcount⟩ := h
  refine ⟨fun b hb => ?_, ?_⟩
  · have := hhead b hb
    cases hq : x.srq with
    | nil => rw [hq] at this; cases this
    | cons y ys => rw [hq] at this; exact this
  · cases hs : x.state with
    | enabled | suspended =>
      simp only [hs] at hcount
      simp only [List.length_append, List.length_singleton]
      omega
    | disabled | disabling => rw [hs] at hstate; cases hstate

theorem State.Works.takeHeader (h : s.Works t) (p : SpId) (f : Frame) : s.Works (t.takeHeader p f) := by
  unfold State.takeHeader
  dsimp only
  split
  · rename_i hcredited
    split
    · exact h.refuseHeader p f _
    · rename_i hpass
      have hcredits : (t.sp p).credits ≠ 0 := headerFault_eq_none_iff.mp hpass .credit
      exact h.setSp (fun hp => hp.queued hcredited hcredits _) fun _ => id
  · exact h.send p _

theorem State.Works.takeBeat (h : s.Works t) (p : SpId) (f : Frame) : s.Works (t.takeBeat p f) := by
  unfold State.takeBeat
  split
  · exact h
  · rename_i b hb
    split
    · cases b.phase with
      | beatWait => exact h.takeWriteBeat hb _ _
      | operandWait | operandBlocked => exact h.takeOperand hb _
      | merge | readHold | readWait | readAccess | admitHold | locked => exact h
    · exact h

/-- A queued header that an ABORT removes gives its credit back (R137, R155). -/
theorem InvPort.queuedAborted {x : StreamPort} (h : InvPort x) {g : Tag} {hd : Header} {ms : List LinkMsg}
    (hfind : (if x.burst.isSome then x.srq.drop 1 else x.srq).find? (·.tag == g) = some hd) :
    InvPort
      { x with
        srq := (if x.burst.isSome then x.srq.take 1 else []) ++
          (if x.burst.isSome then x.srq.drop 1 else x.srq).eraseP (·.tag == g)
        credits := if x.state.credited then x.credits + 1 else x.credits
        outbound := ms } := by
  obtain ⟨hhead, hcount⟩ := h
  have hmem := List.mem_of_find?_eq_some hfind
  have hlen := List.length_eraseP_of_mem hmem (List.find?_some hfind)
  have hpos := List.length_pos_of_mem hmem
  have htotal : x.srq.length =
      (if x.burst.isSome then x.srq.take 1 else []).length +
        (if x.burst.isSome then x.srq.drop 1 else x.srq).length := by
    split
    · rw [← List.length_append, List.take_append_drop]
    · simp
  refine ⟨fun b hb => ?_, ?_⟩
  · have := hhead b hb
    have hb' : x.burst = some b := hb
    cases hq : x.srq with
    | nil => rw [hq] at this; cases this
    | cons y ys =>
      rw [hq] at this
      simpa [hb', hq] using this
  · cases hs : x.state with
    | enabled | suspended =>
      simp only [hs] at hcount
      simp only [PortState.credited, if_true, List.length_append, hlen]
      omega
    | disabling =>
      simp only [hs] at hcount
      rw [hcount.2.2] at hpos
      simp only [if_true, List.length_drop] at hpos
      omega
    | disabled =>
      simp only [hs] at hcount
      rw [hcount.2.2, hcount.2.1] at hpos
      cases hpos

theorem State.Works.abortQueued (h : s.Works t) (p : SpId) (g : Tag) : s.Works (t.abortQueued p g) := by
  unfold State.abortQueued
  dsimp only
  split
  · exact h
  · rename_i hd hfind
    exact h.setSp (fun hp => hp.queuedAborted hfind) fun _ => id

theorem State.Works.abortBurst (h : s.Works t) (hb : (t.sp p).burst = some b) : s.Works (t.abortBurst p b) := by
  unfold State.abortBurst
  cases b.phase with
  | readWait | readAccess => exact h.setBurst hb rfl
  | merge => exact (h.mergeWithdraw _).endBurst p _
  | locked => exact (h.endBurst p _).cancelLock _
  | readHold | beatWait | admitHold | operandWait | operandBlocked => exact h.endBurst p _

theorem State.Works.takeAbort (h : s.Works t) (p : SpId) (g : Tag) : s.Works (t.takeAbort p g) := by
  unfold State.takeAbort
  split
  · rename_i b hb
    split
    · exact h.abortBurst hb
    · exact h.abortQueued p g
  · exact h.abortQueued p g

theorem State.Works.takeFrame (h : s.Works t) (p : SpId) (f : Frame) : s.Works (t.takeFrame p f) := by
  unfold State.takeFrame
  split_ifs
  · exact h.takeHeader p f
  · exact h.takeBeat p f
  · exact h.takeAbort p _
  · exact h

theorem State.Works.arrive (h : s.Works t) (p : SpId) (f : Frame) : s.Works (t.arrive p f) := by
  unfold State.arrive
  split
  · exact h.takeFrame p f
  · refine .blockOperand ?_ p
    exact h.setSpFields rfl rfl rfl rfl

theorem State.Works.linkTake (h : s.Works t) (p : SpId) : s.Works (t.linkTake p) := by
  unfold State.linkTake
  split
  · exact h
  · refine .blockOperand (.takeFrame ?_ p _) p
    exact h.setSpFields rfl rfl rfl rfl

theorem State.Works.spRelease (h : s.Works t) (p : SpId) : s.Works (t.spRelease p) := by
  unfold State.spRelease
  split
  · exact h
  · rename_i b _
    cases b.phase with
    | readHold => exact h.readOn p
    | admitHold => exact h.admitAtomic p
    | merge => exact h.issueHeldBeat p
    | readWait | readAccess | beatWait | operandWait | operandBlocked | locked => exact h

theorem State.Works.beatExpiry (h : s.Works t) (p : SpId) : s.Works (t.beatExpiry p) := by
  unfold State.beatExpiry
  split
  · exact h
  · exact ((h.endBurst p _).logRecord _).suspend p _

end

/-! ### The part's own events but the grant, the interval and the end of quiesce -/

theorem State.Works.lockRelease (h : s.Works t) (q : Port) : s.Works (t.lockRelease q) := by
  unfold State.lockRelease
  split
  · refine .mergeIssue ?_ _
    exact h.setMbFields rfl rfl rfl
  · split
    · exact h.ppLockRelease
    · exact h.spRelease _

theorem State.Works.fenceRelease (h : s.Works t) (q : Port) : s.Works (t.fenceRelease q) := by
  unfold State.fenceRelease
  split
  · exact h.ppFenceRelease
  · exact h.spRelease _

theorem State.Works.allocateWaiter (h : s.Works t) : s.Works t.allocateWaiter := by
  unfold State.allocateWaiter
  split
  · exact h
  · refine .mergeIssue ?_ _
    exact h.setMbFields rfl rfl rfl

theorem State.Works.forcedSignal (h : s.Works t) : s.Works t.forcedSignal := by
  unfold State.forcedSignal
  split
  · exact h
  · split
    · exact h.removeLock _ _
    · exact (h.setLockState _ _).aeUpdate
    · exact (h.setLockState _ _).aeUpdate

/-- A drain's choice is a PENDING entry (R35). -/
theorem MergeBuffer.drainChoice_pending {mb : MergeBuffer} {e : Fin 8} (h : mb.drainChoice = some e) :
    (mb.entry e).state = .pending := by
  simp only [MergeBuffer.drainChoice, Option.or_eq_some_iff] at h
  rcases h with h | ⟨-, h | ⟨-, h⟩⟩
  · have := List.find?_some h
    simp only [Bool.and_eq_true, beq_iff_eq] at this
    exact this.1
  · have := List.find?_some h
    simp only [Bool.and_eq_true, beq_iff_eq] at this
    exact this.1
  · simpa using List.find?_some h

theorem MergeBuffer.resolveChoice_faulted {mb : MergeBuffer} {e : Fin 8} (h : mb.resolveChoice = some e) :
    (mb.entry e).state = .faulted := by
  have := List.find?_some h
  simp only [Bool.and_eq_true, beq_iff_eq] at this
  exact this.1

theorem State.Works.drainStart (h : s.Works t) : s.Works t.drainStart := by
  unfold State.drainStart
  split
  · exact h
  · rename_i e he
    have hpending := MergeBuffer.drainChoice_pending he
    have hactive : (t.mb.entry e).active = true := by simp [Entry.active, hpending]
    dsimp only
    split
    · refine .request ?_ (by decide) _ _
      exact h.setMb fun hb => hb.setEntry_drain (x := { t.mb.entry e with selected := true }) (ph := .writeWait) hactive
        rfl hpending rfl rfl rfl
    · refine .request ?_ (by decide) _ _
      exact h.setMb fun hb => hb.setEntry_drain (x := { t.mb.entry e with selected := true }) (ph := .readWait) hactive
        rfl hpending rfl rfl rfl

theorem State.Works.resolveRequest (h : s.Works t) : s.Works t.resolveRequest := by
  unfold State.resolveRequest
  split
  · exact h
  · rename_i e he
    have hfits : drainFits .resolveWait (t.mb.entry e).state := MergeBuffer.resolveChoice_faulted he
    refine .request ?_ (by decide) _ _
    exact h.setMb fun hb => hb.of_entries (fun _ => rfl) (fun _ => rfl) rfl (MergeBuffer.drainLaw_some rfl hfits)

/-- The events that change the controller, the array interface or the scrub engine. -/
def Due.isSpecial : Due → Bool
  | .grant | .intervalExpiry | .quiesce => true
  | _ => false

/-- Every other event of the part's own, when it is due, is work within the part. -/
theorem State.Works.fire (h : s.Works t) {d : Due} (hd : d ∈ t.due) (hspecial : d.isSpecial = false) :
    s.Works (t.fire d) := by
  have hcond := State.dueCondition_of_due hd
  cases d with
  | prqDispatch => exact h.prqDispatch hcond
  | srqDispatch p => exact h.srqDispatch hcond
  | linkTake p => exact h.linkTake p
  | lockRelease q => exact h.lockRelease q
  | fenceRelease q => exact h.fenceRelease q
  | waiterAlloc => exact h.allocateWaiter
  | forcedSignal => exact h.forcedSignal
  | flushDone => exact h.flushComplete
  | drainStart => exact h.drainStart
  | resolveRequest => exact h.resolveRequest
  | beatExpiry p => exact h.beatExpiry p
  | grant | intervalExpiry | quiesce => cases hspecial

end Sys2Proof.Machine
end

section
/-! What a row does once its event begins, said once: the direct commands' answers (`State.Answers`), the register writes
(`State.Writes`), and all rows together (`State.Acts`); and the induction over every step that follows. -/

namespace Sys2Proof.Machine

/-! ### The direct commands (Table 10-9) -/

/-- What a direct command that answers DONE does, with the condition under which it does it. -/
inductive State.Commands (s : State) : State → Prop
  | run (h : s.ctl.state = .halted) : s.Commands (s.setCtl { s.ctl with state := .running })
  | halt (h : s.ctl.state = .running) : s.Commands (s.setCtl { s.ctl with state := .quiescing }).scrubHalt
  | haltAtOnce (h : s.ctl.state = .running)
      (hq : ((s.setCtl { s.ctl with state := .quiescing }).scrubHalt).quiesced = true) :
      s.Commands ((s.setCtl { s.ctl with state := .quiescing }).scrubHalt).quiesceComplete
  | portEnable (p : SpId) (h : (s.sp p).state = .disabled) :
      s.Commands ((s.setSp p { s.sp p with state := .enabled, credits := 4 }).send p [.credit 4])
  | portDisable (p : SpId) (h : (s.sp p).state.credited = true) : s.Commands (s.portDisable p)
  | portReset (p : SpId) : s.Commands (s.portReset p)
  | portResume (p : SpId) (h : (s.sp p).state = .suspended) : s.Commands (s.setSp p { s.sp p with state := .enabled })
  | loadRegion (n : Fin 16) (h : ¬ s.acu.rgnLast < s.acu.rgnFirst) :
      s.Commands (s.setAcu
        { s.acu with regions := s.acu.regions.set n (.ofStaged s.acu.rgnFirst s.acu.rgnLast s.acu.rgnRights) })
  | viewRegion (n : Fin 16) :
      s.Commands (s.setAcu
        { s.acu with
          viewFirst := s.acu.regions[n].first, viewLast := s.acu.regions[n].last
          viewRights := s.acu.regions[n].rightsBits })
  | viewEntry (e : Fin 8) : s.Commands (s.setMb { s.mb with view := s.mb.snapshot e })
  | resolveDiscard (e : Fin 8) (h : (s.mb.entry e).state = .faulted) : s.Commands (s.resolveDiscard e)
  | resolveForce (e : Fin 8) (h : (s.mb.entry e).state = .faulted) :
      s.Commands (s.setMb (s.mb.setEntry e (s.mb.entry e).force))
  | scrubStart (hrun : s.ctl.state = .running) (h : s.sce.state = .idle) :
      s.Commands (s.setSce { s.sce with state := .patrolWait, intervalCount := 0, lastMode := .patrol })
  | scrubStopWait (h : s.sce.state = .patrolWait) :
      s.Commands (s.setSce { s.sce with state := .idle, intervalDue := false })
  | scrubStopRequest (h : s.sce.state = .patrolRequest) :
      s.Commands (s.withdrawScrub.setSce { s.sce with state := .idle })
  | stopPending (h : s.sce.state = .patrolAccess ∨ s.sce.state = .fillAccess) :
      s.Commands (s.setSce { s.sce with stopPending := true })
  | fillStart (hrun : s.ctl.state = .running) (h : s.sce.state = .idle) : s.Commands s.fillBegin
  | fillStopRequest (h : s.sce.state = .fillRequest) :
      s.Commands (s.withdrawScrub.setSce { s.sce with state := .idle, fillResult := .stopped })
  | logPop (r : ErrorRecord) (rest : List ErrorRecord) (h : s.elog.records = r :: rest) :
      s.Commands (s.setElog { s.elog with records := rest, view := r.view })
  | logClearOverflow : s.Commands (s.setElog { s.elog with overflow := false })
  | clearCounts : s.Commands (s.setElog { s.elog with cntCorrected := 0#16, cntUncorrectable := 0#16 })

/-- A command answers DONE and acts, or answers why not and does nothing (R107). -/
def State.Answers (s : State) (r : CmdOutcome) : Prop :=
  (r.1 = .done ∧ s.Commands r.2) ∨ (r.1 ≠ .done ∧ r.1 ≠ .none ∧ r.2 = s)

section
variable {s t : State}

theorem State.Answers.done (h : s.Commands t) : s.Answers (.done, t) := .inl ⟨rfl, h⟩
theorem State.Answers.refusedState : s.Answers (.refusedState, s) := .inr ⟨nofun, nofun, rfl⟩
theorem State.Answers.refusedArgument : s.Answers (.refusedArgument, s) := .inr ⟨nofun, nofun, rfl⟩
theorem State.Answers.unknown : s.Answers (.unknown, s) := .inr ⟨nofun, nofun, rfl⟩

end

section
variable (s : State) (arg : BitVec 8)

theorem State.cmdRun_answers : s.Answers s.cmdRun := by
  unfold State.cmdRun
  split
  · rename_i h
    exact .done (.run h)
  · exact .refusedState

theorem State.cmdHalt_answers : s.Answers s.cmdHalt := by
  unfold State.cmdHalt
  split
  · rename_i h
    dsimp only
    split
    · rename_i hq
      exact .done (.haltAtOnce h hq)
    · exact .done (.halt h)
  · exact .refusedState

theorem State.cmdPortEnable_answers : s.Answers (s.cmdPortEnable arg) := by
  unfold State.cmdPortEnable
  split
  · exact .refusedArgument
  · split
    · rename_i p _ h
      exact .done (.portEnable p h)
    · exact .refusedState

theorem State.cmdPortDisable_answers : s.Answers (s.cmdPortDisable arg) := by
  unfold State.cmdPortDisable
  split
  · exact .refusedArgument
  · split
    · rename_i p _ h
      exact .done (.portDisable p h)
    · exact .refusedState

theorem State.cmdPortReset_answers : s.Answers (s.cmdPortReset arg) := by
  unfold State.cmdPortReset
  split
  · exact .refusedArgument
  · exact .done (.portReset _)

theorem State.cmdPortResume_answers : s.Answers (s.cmdPortResume arg) := by
  unfold State.cmdPortResume
  split
  · exact .refusedArgument
  · split
    · rename_i p _ h
      exact .done (.portResume p h)
    · exact .refusedState

theorem State.cmdLoadRegion_answers : s.Answers (s.cmdLoadRegion arg) := by
  unfold State.cmdLoadRegion
  split
  · exact .refusedArgument
  · split
    · exact .refusedArgument
    · rename_i n _ h
      exact .done (.loadRegion n h)

theorem State.cmdViewRegion_answers : s.Answers (s.cmdViewRegion arg) := by
  unfold State.cmdViewRegion
  split
  · exact .refusedArgument
  · rename_i n _
    exact .done (.viewRegion n)

theorem State.cmdViewEntry_answers : s.Answers (s.cmdViewEntry arg) := by
  unfold State.cmdViewEntry
  split
  · exact .refusedArgument
  · exact .done (.viewEntry _)

theorem State.cmdResolveDiscard_answers : s.Answers (s.cmdResolveDiscard arg) := by
  unfold State.cmdResolveDiscard
  split
  · exact .refusedArgument
  · split
    · rename_i e _ h
      exact .done (.resolveDiscard e h)
    · exact .refusedState

theorem State.cmdResolveForce_answers : s.Answers (s.cmdResolveForce arg) := by
  unfold State.cmdResolveForce
  split
  · exact .refusedArgument
  · split
    · rename_i e _ h
      exact .done (.resolveForce e h.1)
    · exact .refusedState

theorem State.cmdScrubStart_answers : s.Answers s.cmdScrubStart := by
  unfold State.cmdScrubStart
  split
  · rename_i h
    split
    · exact .refusedArgument
    · exact .done (.scrubStart h.1 h.2)
  · exact .refusedState

theorem State.cmdScrubStop_answers : s.Answers s.cmdScrubStop := by
  unfold State.cmdScrubStop
  cases h : s.sce.state with
  | patrolWait => exact .done (.scrubStopWait h)
  | patrolRequest => exact .done (.scrubStopRequest h)
  | patrolAccess => exact .done (.stopPending (.inl h))
  | idle | fillRequest | fillAccess => exact .refusedState

theorem State.cmdFillStart_answers : s.Answers s.cmdFillStart := by
  unfold State.cmdFillStart
  dsimp only
  split_ifs with hstate
  · exact .refusedArgument
  · exact .refusedState
  · exact .done (.fillStart hstate.1 hstate.2)
  · exact .refusedState

theorem State.cmdFillStop_answers : s.Answers s.cmdFillStop := by
  unfold State.cmdFillStop
  cases h : s.sce.state with
  | fillRequest => exact .done (.fillStopRequest h)
  | fillAccess => exact .done (.stopPending (.inr h))
  | idle | patrolWait | patrolRequest | patrolAccess => exact .refusedState

theorem State.cmdLogPop_answers : s.Answers s.cmdLogPop := by
  unfold State.cmdLogPop
  split
  · exact .refusedState
  · rename_i r rest h
    exact .done (.logPop r rest h)

theorem State.cmdLogClearOverflow_answers : s.Answers s.cmdLogClearOverflow := .done .logClearOverflow
theorem State.cmdClearCounts_answers : s.Answers s.cmdClearCounts := .done .clearCounts

/-- Whatever its code, a COMMAND write acts with DONE or does nothing. -/
theorem State.cmdOfCode_answers (code : BitVec 8) : s.Answers (State.cmdOfCode code arg s) := by
  unfold State.cmdOfCode
  split
  · exact s.cmdRun_answers
  · exact s.cmdHalt_answers
  · exact s.cmdPortEnable_answers arg
  · exact s.cmdPortDisable_answers arg
  · exact s.cmdPortReset_answers arg
  · exact s.cmdPortResume_answers arg
  · exact s.cmdLoadRegion_answers arg
  · exact s.cmdViewRegion_answers arg
  · exact s.cmdViewEntry_answers arg
  · exact s.cmdResolveDiscard_answers arg
  · exact s.cmdResolveForce_answers arg
  · exact s.cmdScrubStart_answers
  · exact s.cmdScrubStop_answers
  · exact s.cmdFillStart_answers
  · exact s.cmdFillStop_answers
  · exact s.cmdLogPop_answers
  · exact s.cmdLogClearOverflow_answers
  · exact s.cmdClearCounts_answers
  · exact .unknown

end

/-! ### The register writes (R108, R112, R136, R158, R185, R189) -/

/-- What the write of a register other than COMMAND does. -/
inductive State.Writes (s : State) : State → Prop
  | ignored : s.Writes s
  | refused : s.Writes (s.setCtl { s.ctl with configRefused := true })
  | memsize (code : BitVec 3) (ptr : Addr) (hs : s.ctl.state = .halted) (hc : code ≤ 4#3) :
      s.Writes ((s.setCfg { s.cfg with memsize := code }).setSce { s.sce with patrolPtr := ptr })
  | prescale (v : Reg16) (hs : s.ctl.state = .halted) (hlow : 1#16 ≤ v) (hhigh : v ≤ 1023#16) :
      s.Writes ((s.setCfg { s.cfg with prescale := v }).setCtl { s.ctl with prescaleCount := 0 })
  | watermarks (l h : BitVec 4) (hs : s.ctl.state = .halted) (hlow : 1#4 ≤ l) (hmid : l ≤ h) (hhigh : h ≤ 8#4) :
      s.Writes (s.setCfg { s.cfg with lwm := l, hwm := h })
  | enables (protect logging : Bool) : s.Writes (s.setCfg { s.cfg with protect := protect, logging := logging })
  | staging (x : Ppt) (hprq : x.prq = s.ppt.prq) (hexec : x.exec = s.ppt.exec) (hcq : x.cq = s.ppt.cq) :
      s.Writes (s.setPpt x)
  | submit : s.Writes s.submit
  | regions (x : Acu) (h : x.regions = s.acu.regions) : s.Writes (s.setAcu x)
  | spConfig (p : SpId) (v : Reg16) : s.Writes (s.writeSpConfig p v)
  | scrub (x : Scrub) (h : x.state = s.sce.state) : s.Writes (s.setSce x)
  | irq (x : Irq) : s.Writes (s.setIrq x)

section
variable (s : State) (v : Reg16)

/-- A configuration write is refused, or acts in HALTED when it is legal (R108). -/
theorem State.cfgWrite_writes {legal : Bool} {f : State → State}
    (h : s.ctl.state = .halted → legal = true → s.Writes (f s)) : s.Writes (s.cfgWrite legal f) := by
  by_cases hc : s.ctl.state = .halted ∧ legal = true
  · rw [State.cfgWrite_of_halted hc.1 hc.2]
    exact h hc.1 hc.2
  · rw [State.cfgWrite_of_refused hc]
    exact .refused

theorem State.writeMemsize_writes : s.Writes (s.writeMemsize v) := by
  unfold State.writeMemsize
  dsimp only
  refine s.cfgWrite_writes fun hs hl => ?_
  simp only [Bool.and_eq_true, decide_eq_true_eq] at hl
  split
  · exact .memsize _ 0#20 hs hl.1
  · exact .memsize _ s.sce.patrolPtr hs hl.1

theorem State.writePrescale_writes : s.Writes (s.writePrescale v) :=
  s.cfgWrite_writes fun hs hl => by
    simp only [Bool.and_eq_true, decide_eq_true_eq] at hl
    exact .prescale v hs hl.1 hl.2

theorem State.writeWatermarks_writes : s.Writes (s.writeWatermarks v) := by
  unfold State.writeWatermarks
  dsimp only
  refine s.cfgWrite_writes fun hs hl => ?_
  simp only [Bool.and_eq_true, decide_eq_true_eq] at hl
  exact .watermarks _ _ hs hl.1.1 hl.1.2 hl.2

theorem State.writeProtect_writes : s.Writes (s.writeProtect v) :=
  s.cfgWrite_writes fun _ _ => .enables _ s.cfg.logging

/-- Every register but COMMAND. -/
theorem State.regWrite_writes {off : BitVec 7} (h : off.toNat ≠ 0x02) : s.Writes (State.regWrite off v s) := by
  unfold State.regWrite
  split
  · exact absurd ‹_› h
  · exact s.writeMemsize_writes v
  · exact s.writePrescale_writes v
  · exact s.writeWatermarks_writes v
  · exact s.writeProtect_writes v
  · exact .enables s.cfg.protect _
  · exact .staging _ rfl rfl rfl
  · exact .staging _ rfl rfl rfl
  · exact .staging _ rfl rfl rfl
  · exact .staging _ rfl rfl rfl
  · exact .staging _ rfl rfl rfl
  · exact .staging _ rfl rfl rfl
  · exact .staging _ rfl rfl rfl
  · exact .submit
  · exact .regions _ rfl
  · exact .regions _ rfl
  · exact .regions _ rfl
  · exact .spConfig .sp0 v
  · exact .spConfig .sp1 v
  · exact .scrub _ rfl
  · exact .scrub _ rfl
  · exact .scrub _ rfl
  · exact .scrub _ rfl
  · exact .scrub _ rfl
  · exact .scrub _ rfl
  · exact .scrub _ rfl
  · exact .irq _
  · exact .irq _
  · exact .ignored

end

/-! ### The rows -/

/-- What a row does once its event begins. -/
inductive State.Acts (s : State) : State → Prop
  | nothing : s.Acts s
  | reset : s.Acts s.cutOff.deviceReset
  | release : s.Acts (s.setReset false)
  | disturb (a : Addr) (flips : Bits39) : s.Acts (s.disturb a flips)
  | tick (h : s.lastPeriod = true) : s.Acts s.completeTick
  | period (h : s.lastPeriod = false) : s.Acts (s.setCtl { s.ctl with prescaleCount := s.ctl.prescaleCount + 1 })
  | drive (v : Reg16) : s.Acts (s.drive v)
  | ctrlStatus : s.Acts s.readCtrlStatus
  | cplPop : s.Acts s.popCompletion
  | register {t : State} (h : s.Writes t) : s.Acts t
  | command {t : State} (h : s.Commands t) (code : BitVec 8) : s.Acts (t.answered .done code)
  | refusal (r : CmdResult) (code : BitVec 8) : s.Acts (s.answered r code)
  | frame (p : SpId) (f : Frame) : s.Acts (s.arrive p f)
  | ppRead (a : Access) (h : s.inFlight .reading .pp = some a) : s.Acts (s.ppReadDone a)
  | streamRead (p : SpId) (a : Access) (h : s.inFlight .reading (portRequester p.port) = some a) :
      s.Acts (s.streamReadDone p a)
  | drainRead (a : Access) (h : s.inFlight .reading .dr = some a) : s.Acts (s.drainReadDone a)
  | drainWrite (a : Access) (h : s.inFlight .writing .dr = some a) : s.Acts (s.drainWriteDone a)
  | atomicRead (a : Access) (h : s.inFlight .pairedRead .ae = some a) : s.Acts (s.atomicReadDone a)
  | atomicWrite (a : Access) (h : s.inFlight .pairedWrite .ae = some a) : s.Acts (s.atomicWriteDone a)
  | patrolRead (a : Access) (h : s.inFlight .pairedRead .sc = some a) : s.Acts (s.patrolReadDone a)
  | patrolWrite (a : Access) (h : s.inFlight .pairedWrite .sc = some a) : s.Acts (s.patrolWriteDone a)
  | fillWrite (a : Access) (h : s.inFlight .writing .sc = some a) : s.Acts (s.fillWriteDone a)

theorem State.command_acts {s : State} {f : State → CmdOutcome} (h : s.Answers (f s)) (code : BitVec 8) :
    s.Acts (s.command code f) := by
  show s.Acts ((f s).2.answered (f s).1 code)
  rcases h with ⟨hdone, hacts⟩ | ⟨-, -, hsame⟩
  · rw [hdone]
    exact .command hacts code
  · rw [hsame]
    exact .refusal _ code

theorem State.regWrite_acts (s : State) (off : BitVec 7) (v : Reg16) : s.Acts (State.regWrite off v s) := by
  by_cases hcommand : off.toNat = 0x02
  · simpa only [State.regWrite, hcommand] using
      State.command_acts (s.cmdOfCode_answers (v.extractLsb' 0 8) (v.extractLsb' 8 8)) _
  · exact .register (s.regWrite_writes v hcommand)

theorem State.refclk_acts (s : State) : s.Acts s.refclk := by
  unfold State.refclk
  cases h : s.lastPeriod with
  | true => exact .tick h
  | false => exact .period h

/-- A property that every due event, every row and the model's own fields keep. -/
structure KeptBySteps (P : State → Prop) : Prop where
  own : ∀ s o, P s → P (s.setOwn o)
  pending : ∀ s q, P s → P (s.setPending q)
  fire : ∀ s d, d ∈ s.due → P s → P (s.fire d)
  acts : ∀ s t, s.Acts t → P s → P t

section
variable {P : State → Prop} {s : State}

theorem KeptBySteps.eventStart (k : KeptBySteps P) (h : P s) : P s.eventStart :=
  State.eventStart_induct k.own k.fire h

theorem KeptBySteps.eventStartBy (k : KeptBySteps P) (h : P s) (together : Bool) : P (s.eventStartBy together) :=
  State.eventStartBy_induct k.own k.fire h

theorem KeptBySteps.internal (k : KeptBySteps P) (h : P s) (d : Due) : P (s.internal d) := by
  by_cases hd : d ∈ s.due
  · rw [State.internal_of_due hd]
    exact k.fire s d hd h
  · rwa [State.internal_of_not_due hd]

theorem KeptBySteps.outside (k : KeptBySteps P) (h : P s) {f : State → State} (hf : ∀ t : State, t.Acts (f t)) :
    P (s.outside f) := by
  unfold State.outside
  split
  · exact h
  · exact k.acts _ _ (hf _) (k.eventStart h)

theorem KeptBySteps.busWrite (k : KeptBySteps P) (h : P s) (b : Bus) {f : State → State} (hf : ∀ t : State, t.Acts (f t)) :
    P (s.busWrite b f) := by
  unfold State.busWrite State.outsideBy
  split_ifs
  · exact h
  · exact k.acts _ _ (hf _) (k.eventStartBy h _)
  · exact h

theorem KeptBySteps.command (k : KeptBySteps P) (h : P s) (b : Bus) (code : BitVec 8) {f : State → CmdOutcome}
    (hf : ∀ t : State, t.Answers (f t)) : P (s.busWrite b fun t => t.command code f) :=
  k.busWrite h b fun t => State.command_acts (hf t) code

theorem KeptBySteps.busRead (k : KeptBySteps P) (h : P s) (b : Bus) {f : State → State} (hf : ∀ t : State, t.Acts (f t)) :
    P (s.busRead b f) := by
  unfold State.busRead
  split_ifs
  · exact k.acts _ _ (.drive _) h
  · exact h
  · exact k.acts _ _ (hf _) (k.eventStartBy h _)
  · exact h

theorem KeptBySteps.frameTaken (k : KeptBySteps P) (h : P s) (p : SpId) (f : Arrival) {start : State}
    (hstart : P start) : P (s.frameTaken p f start) := by
  unfold State.frameTaken
  split
  · exact h
  · exact k.acts _ _ (.frame p f.frame) hstart

theorem KeptBySteps.complete (k : KeptBySteps P) (h : P s) {st : AifState} {r : Requester} {f : State → Access → State}
    (hf : ∀ (t : State) a, t.inFlight st r = some a → t.Acts (f t a)) : P (s.complete st r f) :=
  k.outside h fun t => by
    split
    · exact .nothing
    · rename_i a ha
      exact hf t a ha

theorem KeptBySteps.streamReadCompletion (k : KeptBySteps P) (h : P s) :
    ∃ t, execStreamReadCompletion s = .next t ∧ P t :=
  ⟨_, rfl, k.outside h fun t => by
    split
    · rename_i ha
      exact .streamRead .sp0 _ ha
    · rename_i a _ ha
      exact .streamRead .sp1 a ha
    · exact .nothing⟩

theorem KeptBySteps.writeBeat (k : KeptBySteps P) (h : P s) (p : SpId) (f : Arrival) (together : Bool) :
    ∃ t, execWriteBeat p f together s = .next t ∧ P t := by
  have hstart : P (if together then s.eventTogether else s.eventStart) := by
    split
    · exact State.eventTogether_induct k.own k.fire h
    · exact k.eventStart h
  exact ⟨_, rfl, k.frameTaken h p f hstart⟩

/-- Every row keeps it. -/
theorem KeptBySteps.exec_next (k : KeptBySteps P) (h : P s) (c : Instr) : ∃ t, exec c s = .next t ∧ P t := by
  cases c with
  | resetAssert => exact ⟨_, rfl, k.outside h fun _ => .reset⟩
  | resetRelease => exact ⟨_, rfl, k.acts _ _ .release h⟩
  | tick =>
    refine ⟨_, rfl, k.outside h fun t => ?_⟩
    split
    · exact .tick ‹_›
    · exact .nothing
  | refclkPeriod => exact ⟨_, rfl, k.outside h State.refclk_acts⟩
  | beatTimerExpiry p => exact ⟨_, rfl, k.internal h (.beatExpiry p)⟩
  | intervalExpiry => exact ⟨_, rfl, k.internal h .intervalExpiry⟩
  | ctrlStatusRead b => exact ⟨_, rfl, k.busRead h b fun _ => .ctrlStatus⟩
  | cplPop b => exact ⟨_, rfl, k.busRead h b fun _ => .cplPop⟩
  | reqSubmit b v => exact ⟨_, rfl, k.busWrite h b fun _ => .register .submit⟩
  | cfgMemsizeWrite b v => exact ⟨_, rfl, k.busWrite h b fun t => .register (t.writeMemsize_writes v)⟩
  | cfgPrescaleWrite b v => exact ⟨_, rfl, k.busWrite h b fun t => .register (t.writePrescale_writes v)⟩
  | cfgWatermarksWrite b v => exact ⟨_, rfl, k.busWrite h b fun t => .register (t.writeWatermarks_writes v)⟩
  | cfgProtectWrite b v => exact ⟨_, rfl, k.busWrite h b fun t => .register (t.writeProtect_writes v)⟩
  | irqPendingWrite b v => exact ⟨_, rfl, k.busWrite h b fun _ => .register (.irq _)⟩
  | registerWrite b off v => exact ⟨_, rfl, k.busWrite h b fun t => t.regWrite_acts off v⟩
  | run b arg => exact ⟨_, rfl, k.command h b _ State.cmdRun_answers⟩
  | halt b arg => exact ⟨_, rfl, k.command h b _ State.cmdHalt_answers⟩
  | portEnable b arg => exact ⟨_, rfl, k.command h b _ (State.cmdPortEnable_answers · arg)⟩
  | portDisable b arg => exact ⟨_, rfl, k.command h b _ (State.cmdPortDisable_answers · arg)⟩
  | portReset b arg => exact ⟨_, rfl, k.command h b _ (State.cmdPortReset_answers · arg)⟩
  | portResume b arg => exact ⟨_, rfl, k.command h b _ (State.cmdPortResume_answers · arg)⟩
  | loadRegion b arg => exact ⟨_, rfl, k.command h b _ (State.cmdLoadRegion_answers · arg)⟩
  | viewRegion b arg => exact ⟨_, rfl, k.command h b _ (State.cmdViewRegion_answers · arg)⟩
  | viewEntry b arg => exact ⟨_, rfl, k.command h b _ (State.cmdViewEntry_answers · arg)⟩
  | resolveDiscard b arg => exact ⟨_, rfl, k.command h b _ (State.cmdResolveDiscard_answers · arg)⟩
  | resolveForce b arg => exact ⟨_, rfl, k.command h b _ (State.cmdResolveForce_answers · arg)⟩
  | scrubStart b arg => exact ⟨_, rfl, k.command h b _ State.cmdScrubStart_answers⟩
  | scrubStop b arg => exact ⟨_, rfl, k.command h b _ State.cmdScrubStop_answers⟩
  | fillStart b arg => exact ⟨_, rfl, k.command h b _ State.cmdFillStart_answers⟩
  | fillStop b arg => exact ⟨_, rfl, k.command h b _ State.cmdFillStop_answers⟩
  | logPop b arg => exact ⟨_, rfl, k.command h b _ State.cmdLogPop_answers⟩
  | logClearOverflow b arg => exact ⟨_, rfl, k.command h b _ State.cmdLogClearOverflow_answers⟩
  | clearCounts b arg => exact ⟨_, rfl, k.command h b _ State.cmdClearCounts_answers⟩
  | unknownCommand b code arg => exact ⟨_, rfl, k.command h b _ (State.cmdOfCode_answers · arg code)⟩
  | header p f => exact ⟨_, rfl, k.frameTaken h p f (k.eventStart h)⟩
  | writeBeat p f together => exact k.writeBeat h p f together
  | abort p f => exact ⟨_, rfl, k.frameTaken h p f.toArrival (k.eventStartBy h _)⟩
  | discardedFrame p f => exact ⟨_, rfl, k.frameTaken h p f (k.eventStart h)⟩
  | prqDispatch => exact ⟨_, rfl, k.internal h .prqDispatch⟩
  | srqDispatch p => exact ⟨_, rfl, k.internal h (.srqDispatch p)⟩
  | arrayGrant => exact ⟨_, rfl, k.internal h .grant⟩
  | drainStart => exact ⟨_, rfl, k.internal h .drainStart⟩
  | resolveWriteRequest => exact ⟨_, rfl, k.internal h .resolveRequest⟩
  | ppReadCompletion => exact ⟨_, rfl, k.complete h fun _ => .ppRead⟩
  | streamReadCompletion => exact k.streamReadCompletion h
  | drainReadCompletion => exact ⟨_, rfl, k.complete h fun _ => .drainRead⟩
  | drainWriteCompletion => exact ⟨_, rfl, k.complete h fun _ => .drainWrite⟩
  | atomicReadCompletion => exact ⟨_, rfl, k.complete h fun _ => .atomicRead⟩
  | atomicWriteCompletion => exact ⟨_, rfl, k.complete h fun _ => .atomicWrite⟩
  | patrolReadCompletion => exact ⟨_, rfl, k.complete h fun _ => .patrolRead⟩
  | patrolWriteCompletion => exact ⟨_, rfl, k.complete h fun _ => .patrolWrite⟩
  | fillWriteCompletion => exact ⟨_, rfl, k.complete h fun _ => .fillWrite⟩
  | lockHoldRelease q => exact ⟨_, rfl, k.internal h (.lockRelease q)⟩
  | fenceHoldRelease q => exact ⟨_, rfl, k.internal h (.fenceRelease q)⟩
  | waitingWriterAllocation => exact ⟨_, rfl, k.internal h .waiterAlloc⟩
  | forcedDrainSignal => exact ⟨_, rfl, k.internal h .forcedSignal⟩
  | flushCompletion => exact ⟨_, rfl, k.internal h .flushDone⟩
  | quiesceComplete => exact ⟨_, rfl, k.internal h .quiesce⟩
  | arrayDisturbance a flips => exact ⟨_, rfl, k.acts _ _ (.disturb a flips) h⟩

/-- Every step keeps it: the front command's row, or on an empty queue one of the part's own events. -/
theorem KeptBySteps.step (k : KeptBySteps P) (s t : State) (h : P s) (hstep : step s = .next t) : P t := by
  unfold Machine.step at hstep
  split at hstep
  · obtain ⟨u, hu, hP⟩ := k.exec_next (k.pending _ _ h) _
    exact Host.Outcome.next.inj (hu.symm.trans hstep) ▸ hP
  · exact Host.Outcome.next.inj hstep ▸ State.settleOne_induct (fun _ => k.own _ _) k.fire _ h

end

end Sys2Proof.Machine
end

section
/-! The laws at every step: the grant and the completions of an access (`State.Serves`), the commands and the register
writes, and the statements about the queues, the credits, the buffer, the log and the array's form. -/

namespace Sys2Proof.Machine

variable {s t u : State}

/-! ### A port's lock entry and its port (R69, R70) -/

/-- A result handed to another port leaves a stream port alone. -/
theorem State.deliver_sp_other {e : LockEntry} {p : SpId} (he : e.port ≠ p.port) (r : LockResult) :
    (s.deliver e r).sp p = s.sp p := by
  rcases s.deliver_shape e r with h | ⟨-, x, h⟩ | ⟨q, x, hq, h⟩
  · rw [h]
  · rw [h, State.setPpt_sp]
  · have hpq : p ≠ q := fun hpq => he (by rw [hq, hpq])
    rw [h, State.setSp_sp_other _ hpq]

/-- With no entry of its own in the table, a stream port is not touched by the next entry's steps. -/
theorem State.lockNext_sp (n : Nat) (w : Addr) {p : SpId} (h : ∀ e ∈ s.wlt, e.port ≠ p.port) :
    (State.lockNext n w s).sp p = s.sp p := by
  induction n generalizing s with
  | zero => rfl
  | succ n ih =>
    cases hf : s.firstLock w with
    | none =>
      obtain ⟨x, hx⟩ := s.releaseHeldAtomic_shape w
      rw [State.lockNext_none hf, hx, State.setPpt_sp]
    | some e =>
      by_cases he : e.state = .waitTurn
      · cases hk : s.mbAsk w with
        | none => rw [State.lockNext_clear hf he hk, State.setLockState, State.setWlt_sp]
        | forced i => rw [State.lockNext_forced hf he hk, State.setLockState, State.setWlt_sp, State.setMb_sp]
        | faulted =>
          have hport : e.port ≠ p.port := h e (State.firstLock_some hf).1
          have hleft : ∀ x ∈ ((s.eraseLock e.port).deliver e .faulted).wlt, x.port ≠ p.port := fun x hx => by
            rw [State.deliver_wlt] at hx
            exact h x (List.mem_filter.1 hx).1
          rw [State.lockNext_faulted hf he hk, ih hleft, State.deliver_sp_other hport, State.eraseLock, State.setWlt_sp]
      · rw [State.lockNext_waiting hf he]

theorem State.aeUpdate_sp (s : State) (p : SpId) : s.aeUpdate.sp p = s.sp p := by
  cases p
  · exact s.aeUpdate_follows.2 .sp0 (by decide)
  · exact s.aeUpdate_follows.2 .sp1 (by decide)

/-- Cancelling a port's lock entry leaves the port itself alone: it is handed no result (R69, R70). -/
theorem State.cancelLock_sp (s : State) (p : SpId) : (s.cancelLock p.port).sp p = s.sp p := by
  unfold State.cancelLock
  split
  · rfl
  · rename_i e he
    have hport : e.port = p.port := by simpa using List.find?_some he
    split
    · rw [State.setWlt_sp]
    · rw [State.removeLock_eq, State.aeUpdate_sp, State.lockNext_sp]
      · rw [State.afterRemoval, State.eraseLock, State.setWlt_sp]
      · intro x hx
        rw [State.afterRemoval_wlt, List.mem_filter, hport] at hx
        simpa using hx.2

/-! ### PORT_DISABLE and PORT_RESET (R132, R133) -/

/-- The burst, cut off, is gone, and the queued headers with their port's other fields stand. -/
theorem State.resetBurst_burst (s : State) (p : SpId) : ((s.resetBurst p).sp p).burst = none := by
  unfold State.resetBurst
  split
  · assumption
  · rename_i b _
    cases b.phase <;> simp [State.setSlot, State.mergeWithdraw, State.cancelLock_sp]

/-- A port that ends up DISABLED and empty may pass through any state without a burst. -/
theorem State.Works.overwrite {p : SpId} {x y : StreamPort} (h : (s.setSp p y).Works u) (hy : y.burst = none)
    (hx : InvPort x) (hburst : x.burst = none) : s.Works (u.setSp p x) := by
  have hlast : u.Works (u.setSp p x) := (State.Works.refl u).setSp (fun _ => hx) fun _ _ => hburst
  have hfirst : s.ctl.state = .halted → s.Quiet → (s.setSp p y).Quiet := fun hs hq => by
    obtain ⟨hexec, hbursts, hlocks⟩ := hq
    refine ⟨by simpa using hexec, fun q => ?_, by simpa using hlocks⟩
    by_cases hqp : q = p
    · rw [hqp, State.setSp_sp_same, hy]
    · rw [State.setSp_sp_other _ hqp, hbursts]
  refine
    { array := fun ha => hlast.array (h.array (by simpa only [InvArray, State.setSp_array] using ha))
      queues := fun hq => hlast.queues (h.queues (by simpa only [InvQueues, State.setSp_ppt, State.setSp_elog] using hq))
      ports := fun q hq => ?_
      buffer := fun hb => hlast.buffer (h.buffer (by simpa only [InvBuffer, State.setSp_mb] using hb))
      sequence := fun hq => hlast.sequence (h.sequence (by simpa only [InvSequence, State.setSp_elog] using hq))
      acu := by rw [hlast.acu, h.acu, State.setSp_acu]
      cfg := by rw [hlast.cfg, h.cfg, State.setSp_cfg]
      ctl := by rw [hlast.ctl, h.ctl, State.setSp_ctl]
      aif := by rw [hlast.aif, h.aif, State.setSp_aif]
      sce := by rw [hlast.sce, h.sce, State.setSp_sce]
      scrubSlot := by rw [hlast.scrubSlot, h.scrubSlot, State.setSp_arb]
      bypass := by rw [hlast.bypass, h.bypass, State.setSp_arb]
      quiet := fun hs hq => ?_ }
  · by_cases hqp : q = p
    · rw [hqp, State.setSp_sp_same]
      exact hx
    · refine hlast.ports q (h.ports q ?_)
      rwa [State.setSp_sp_other _ hqp]
  · have hctl : u.ctl.state = .halted := by rw [h.ctl, State.setSp_ctl, hs]
    exact hlast.quiet hctl (h.quiet (by rwa [State.setSp_ctl]) (hfirst hs hq))

/-- A DISABLED port without a burst, a header or a credit. -/
theorem InvPort.disabled {x : StreamPort} (hstate : x.state = .disabled) (hsrq : x.srq = []) (hcredits : x.credits = 0)
    (hburst : x.burst = none) : InvPort x := by
  refine ⟨fun b hb => ?_, ?_⟩
  · rw [hburst] at hb
    cases hb
  · rw [hstate]
    exact ⟨hcredits, hsrq, hburst⟩

theorem State.Works.portReset (s : State) (p : SpId) : s.Works (s.portReset p) := by
  have hwork : ∃ y, y.burst = none ∧ (s.setSp p y).Works (s.resetBurst p) := by
    unfold State.resetBurst
    split
    · rename_i hnone
      exact ⟨s.sp p, hnone, by rw [State.setSp_self]; exact .refl s⟩
    · rename_i b _
      cases b.phase with
      | readWait => exact ⟨_, rfl, (State.Works.refl _).setSlot (portRequester_ne_sc _) _⟩
      | merge => exact ⟨_, rfl, (State.Works.refl _).mergeWithdraw _⟩
      | locked => exact ⟨_, rfl, (State.Works.refl _).cancelLock _⟩
      | readHold | readAccess | beatWait | admitHold | operandWait | operandBlocked => exact ⟨_, rfl, .refl _⟩
  obtain ⟨y, hy, hworks⟩ := hwork
  exact hworks.overwrite hy (.disabled rfl rfl rfl (s.resetBurst_burst p)) (s.resetBurst_burst p)

/-- A disabled port keeps its burst and no queued header (R132). -/
theorem InvPort.portDisabled {x : StreamPort} (h : InvPort x) (ms : List LinkMsg) :
    InvPort
      { x with
        state := if x.burst.isSome then .disabling else .disabled
        srq := if x.burst.isSome then x.srq.take 1 else []
        credits := 0
        outbound := ms } := by
  obtain ⟨hhead, -⟩ := h
  cases hb : x.burst with
  | none => exact .disabled (by simp) (by simp) rfl rfl
  | some b =>
    have hsrq := hhead b hb
    cases hq : x.srq with
    | nil => rw [hq] at hsrq; cases hsrq
    | cons y ys =>
      rw [hq] at hsrq
      refine ⟨fun c hc => ?_, ?_⟩
      · cases hc
        simpa using hsrq
      · simp

theorem State.Works.portDisable (s : State) (p : SpId) : s.Works (s.portDisable p) :=
  (State.Works.refl s).setSp (fun hp => hp.portDisabled _) fun _ => id

/-! ### Accesses begin, turn and end -/

/-- What serving the array interface does: the work within the part around an access that begins, goes on to its write or
ends. An IDLE interface is left without an access. -/
structure State.Serves (s t : State) : Prop extends State.Lawful s t where
  acu : t.acu = s.acu
  cfg : t.cfg = s.cfg
  ctl : t.ctl = s.ctl
  sce : t.sce = s.sce
  scrubSlot : t.arb.slots.sc = s.arb.slots.sc
  bypass : t.arb.bypass = s.arb.bypass
  quiet : s.ctl.state = .halted → s.Quiet → t.Quiet
  access : t.aif.state = .idle → t.aif.access = none

/-- The interface is outside the laws. -/
theorem State.Works.setAif (h : s.Works t) {x : Aif} (hx : x.state = .idle → x.access = none) :
    s.Serves (t.setAif x) where
  toLawful := h.toLawful.trans (.of_blocks rfl rfl rfl (fun p => by cases p <;> rfl) rfl)
  acu := h.acu
  cfg := h.cfg
  ctl := h.ctl
  sce := h.sce
  scrubSlot := h.scrubSlot
  bypass := h.bypass
  quiet := h.quiet
  access := hx

/-- The model's own fields are outside the laws. -/
theorem State.Serves.setOwn (h : s.Serves t) (o : Own) : s.Serves (t.setOwn o) where
  toLawful := h.toLawful.trans (.of_blocks rfl rfl rfl (fun p => by cases p <;> rfl) rfl)
  acu := h.acu
  cfg := h.cfg
  ctl := h.ctl
  sce := h.sce
  scrubSlot := h.scrubSlot
  bypass := h.bypass
  quiet := h.quiet
  access := h.access

theorem State.Works.endAccess (h : s.Works t) : s.Serves t.endAccess :=
  (h.setAif fun _ => rfl).setOwn _

theorem State.Works.pairedWrite (h : s.Works t) (a : Access) (r : Word × DecodeOutcome) (d : Word) :
    s.Serves (t.pairedWrite a r d) := h.setAif fun hidle => by cases hidle

theorem State.Works.beginAccess (h : s.Works t) (k : AccessKind) (r : Requester) (a : Addr) (d : Option Word) :
    s.Serves (t.beginAccess k r a d) :=
  h.setAif fun hidle => by cases k <;> cases hidle

/-- The rest of the work at an access's event. -/
theorem State.Serves.then (h : s.Serves t) (k : t.Works u) : s.Serves u where
  toLawful := h.toLawful.trans k.toLawful
  acu := k.acu.trans h.acu
  cfg := k.cfg.trans h.cfg
  ctl := k.ctl.trans h.ctl
  sce := k.sce.trans h.sce
  scrubSlot := k.scrubSlot.trans h.scrubSlot
  bypass := k.bypass.trans h.bypass
  quiet hs hq := k.quiet (by rw [h.ctl]; exact hs) (h.quiet hs hq)
  access := by rw [k.aif]; exact h.access

/-- Work, the end of the access, and work again: what most completions are. -/
def State.Ends (s t : State) : Prop := ∃ u, s.Works u ∧ u.endAccess.Works t

theorem State.Works.ends (h : s.Works u) (k : u.endAccess.Works t) : s.Ends t := ⟨u, h, k⟩

theorem State.Ends.serves (h : s.Ends t) : s.Serves t := by
  obtain ⟨u, hbefore, hafter⟩ := h
  exact hbefore.endAccess.then hafter

/-- An ended access leaves the interface IDLE. -/
theorem State.Ends.aif (h : s.Ends t) : t.aif = { state := .idle, access := none } := by
  obtain ⟨u, -, hafter⟩ := h
  exact hafter.aif

/-- A stored word is outside every law but the array's form (R7). -/
theorem State.Works.storeWord (h : s.Works t) (a : Addr) (d : Word) : s.Works (t.storeWord a d) :=
  h.trans
    { array := fun ha => t.storeWord_wf a d ha
      queues := id
      ports := fun p hp => by cases p <;> exact hp
      buffer := id
      sequence := id
      acu := rfl, cfg := rfl, ctl := rfl, aif := rfl, sce := rfl, scrubSlot := rfl, bypass := rfl
      quiet := fun _ hq => ⟨hq.1, fun p => by cases p; exacts [hq.2.1 .sp0, hq.2.1 .sp1], hq.2.2⟩ }

/-! ### The completions (R13 to R15) -/

section
variable (s) (a : Access)

theorem State.ppReadDone_serves : s.Serves (s.ppReadDone a) := by
  unfold State.ppReadDone
  dsimp only
  split
  · exact (State.Works.refl s).endAccess
  · exact (((State.Works.refl s).reportRead _ _ _ _ _).endAccess).then ((State.Works.refl _).ppComplete _ _)

theorem State.discardedReadDone_serves (p : SpId) (g : Tag) : s.Serves (s.discardedReadDone p a g) := by
  have hended := ((State.Works.refl s).reportRead (s.readArray a.addr).2 (portSource p.port) a.addr .read
    (some g)).endAccess
  unfold State.discardedReadDone
  refine hended.then ?_
  have hflag := (State.Works.refl ((s.reportRead (s.readArray a.addr).2 (portSource p.port) a.addr .read
    (some g)).endAccess)).setSpFields (p := p)
    (x := { ((s.reportRead (s.readArray a.addr).2 (portSource p.port) a.addr .read (some g)).endAccess).sp p with
      discardedRead := none }) rfl rfl rfl rfl
  dsimp only
  split
  · split
    · exact hflag.request (portRequester_ne_sc _) _ _
    · exact hflag
  · exact hflag

theorem State.streamReadDone_serves (p : SpId) : s.Serves (s.streamReadDone p a) := by
  unfold State.streamReadDone
  split
  · exact s.discardedReadDone_serves a p _
  · split
    · exact (State.Works.refl s).endAccess
    · exact (((State.Works.refl s).reportRead _ _ _ _ _).endAccess).then ((State.Works.refl _).readDelivered p _ _)

end

theorem State.Works.drainRecord (h : s.Works t) (e : Fin 8) (x : Entry) (o : DecodeOutcome) :
    s.Works (t.drainRecord e x o) := by
  cases o with
  | clean => exact h
  | corrected pos => exact h.recordOutcome (.corrected pos) _
  | uncorrectable => exact h.logRecord _

/-- The drain engine's entry, PENDING and full, awaits its write (R37). -/
theorem State.Works.drainWrite (h : s.Works t) {e : Fin 8} {x : Entry} (he : t.mb.drain.entry = some e)
    (hx : x.state = .pending) (ha : x.addr = (t.mb.entry e).addr) : s.Works (t.drainWrite e x) := by
  refine .request ?_ (by decide) _ _
  exact h.setMb fun hb => hb.setEntry_drain (hb.active_of_drain he) ha (ph := .writeWait) hx rfl rfl rfl

/-- The drain engine goes IDLE and leaves its entry not FREE. -/
theorem InvBuffer.drainEnds (h : InvBuffer s) {mb : MergeBuffer} {e : Fin 8} {x : Entry}
    (he : s.mb.drain.entry = some e) (hx : x.active = true) (ha : x.addr = (s.mb.entry e).addr)
    (hentries : mb.entries = (s.mb.setEntry e x).entries) (hage : mb.age = s.mb.age)
    (hdrain : mb.drain = { phase := .idle, entry := none }) : InvBuffer (s.setMb mb) :=
  h.setEntry (hx.trans (h.active_of_drain he).symm) ha hentries hage (MergeBuffer.drainLaw_none hdrain)

/-- Records and counts leave the buffer alone. -/
theorem State.drainRecord_mb (s : State) (e : Fin 8) (x : Entry) (o : DecodeOutcome) :
    (s.drainRecord e x o).mb = s.mb := by
  cases o with
  | clean => rfl
  | corrected pos =>
    unfold State.drainRecord State.recordOutcome
    dsimp only
    split
    · obtain ⟨l, hl⟩ := s.logRecord_elog { ErrorRecord.base .corrected .drain x.addr with
        kind := .corrected, pos := some pos }
      rw [hl, State.setElog_mb]
    · rfl
  | uncorrectable =>
    obtain ⟨l, hl⟩ := s.logRecord_elog
      { ErrorRecord.base .mergeFault .drain x.addr with entry := some e, mask := some x.mask }
    rw [State.drainRecord, hl, State.setElog_mb]

@[simp] theorem State.countOutcome_mb (s : State) (o : DecodeOutcome) : (s.countOutcome o).mb = s.mb := by
  cases o <;> rfl

theorem State.drainReadOf_ends {e : Fin 8} (he : s.mb.drain.entry = some e) (read : Word × DecodeOutcome) :
    s.Ends (s.drainReadOf e read) := by
  have hcount := (State.Works.refl s).countOutcome read.2
  have hmb : (s.countOutcome read.2).endAccess.mb = s.mb := State.countOutcome_mb s _
  unfold State.drainReadOf
  refine hcount.ends ?_
  dsimp only
  split
  · exact (State.Works.refl _).drainWrite (x := { s.mb.entry e with state := .pending }) (by rw [hmb, he]) rfl (by rw [hmb])
  · have hrecord := (State.Works.refl (s.countOutcome read.2).endAccess).drainRecord e (s.mb.entry e) read.2
    have hrecmb := (State.drainRecord_mb (s.countOutcome read.2).endAccess e (s.mb.entry e) read.2).trans hmb
    split
    · exact hrecord.setMb fun hb => hb.drainEnds (x := (s.mb.entry e).faulted) (by rw [hrecmb, he]) rfl
        (by rw [hrecmb]; rfl) rfl rfl rfl
    · exact hrecord.drainWrite (x := (s.mb.entry e).filled read.1) (by rw [hrecmb, he]) rfl (by rw [hrecmb]; rfl)

section
variable (s) (a : Access)

theorem State.drainReadDone_ends : s.Ends (s.drainReadDone a) := by
  unfold State.drainReadDone
  split
  · exact (State.Works.refl s).ends (.refl _)
  · rename_i e he
    exact State.drainReadOf_ends he _

theorem State.drainWriteDone_ends : s.Ends (s.drainWriteDone a) := by
  unfold State.drainWriteDone
  refine ((State.Works.refl s).storeWord a.addr (a.writeData.getD 0#32)).ends ?_
  dsimp only
  split
  · exact .refl _
  · rename_i e he
    unfold MergeBuffer.written
    split
    · exact (State.Works.refl _).setMb fun hb => hb.drainEnds (x := (s.mb.entry e).reopen) he rfl rfl rfl rfl rfl
    · exact (State.Works.refl _).setMb fun hb => hb.release rfl rfl (MergeBuffer.drainLaw_none rfl)

theorem State.atomicReadDone_serves : s.Serves (s.atomicReadDone a) := by
  unfold State.atomicReadDone
  split
  · exact (State.Works.refl s).endAccess
  · rename_i e _
    have hreport := (State.Works.refl s).reportRead (s.readArray a.addr).2 (portSource e.port) a.addr .atomic (some e.tag)
    unfold State.atomicReadOf
    dsimp only
    split
    · exact hreport.endAccess.then ((State.Works.refl _).removeLock _ _)
    · split
      · exact hreport.pairedWrite _ _ _
      · exact hreport.endAccess.then ((State.Works.refl _).removeLock _ _)

theorem State.atomicWriteDone_serves : s.Serves (s.atomicWriteDone a) := by
  have hended := ((State.Works.refl s).storeWord a.addr (a.writeData.getD 0#32)).endAccess
  unfold State.atomicWriteDone
  refine hended.then ?_
  dsimp only
  split
  · exact .refl _
  · exact (State.Works.refl _).removeLock _ _

end

end Sys2Proof.Machine
end

section
/-! The laws at every step: the grant, the scrub engine's work, the register writes and the commands, and the statements
about the queues, the credits, the buffer, the log and the array's form. -/

namespace Sys2Proof.Machine

variable {s t u : State}

/-! ### The blocks outside the laws -/

theorem State.Lawful.setSce (h : s.Lawful t) (x : Scrub) : s.Lawful (t.setSce x) :=
  h.trans (.of_blocks rfl rfl rfl (fun p => by simp) rfl)
theorem State.Lawful.setArb (h : s.Lawful t) (x : Arbiter) : s.Lawful (t.setArb x) :=
  h.trans (.of_blocks rfl rfl rfl (fun p => by simp) rfl)
theorem State.Lawful.setAif (h : s.Lawful t) (x : Aif) : s.Lawful (t.setAif x) :=
  h.trans (.of_blocks rfl rfl rfl (fun p => by simp) rfl)
theorem State.Lawful.setCtl (h : s.Lawful t) (x : Control) : s.Lawful (t.setCtl x) :=
  h.trans (.of_blocks rfl rfl rfl (fun p => by simp) rfl)
theorem State.Lawful.setCfg (h : s.Lawful t) (x : Settings) : s.Lawful (t.setCfg x) :=
  h.trans (.of_blocks rfl rfl rfl (fun p => by simp) rfl)
theorem State.Lawful.setAcu (h : s.Lawful t) (x : Acu) : s.Lawful (t.setAcu x) :=
  h.trans (.of_blocks rfl rfl rfl (fun p => by simp) rfl)
theorem State.Lawful.setIrq (h : s.Lawful t) (x : Irq) : s.Lawful (t.setIrq x) :=
  h.trans (.of_blocks rfl rfl rfl (fun p => by simp) rfl)
theorem State.Lawful.setReset (h : s.Lawful t) (x : Bool) : s.Lawful (t.setReset x) :=
  h.trans (.of_blocks rfl rfl rfl (fun p => by simp) rfl)
theorem State.Lawful.setOwn (h : s.Lawful t) (x : Own) : s.Lawful (t.setOwn x) :=
  h.trans (.of_blocks rfl rfl rfl (fun p => by simp) rfl)
theorem State.Lawful.setPending (h : s.Lawful t) (x : List Instr) : s.Lawful (t.setPending x) :=
  h.trans (.of_blocks rfl rfl rfl (fun p => by simp) rfl)

/-! ### The grant (R76 to R81) -/

/-- A requester's access has begun. -/
def State.InFlightFor (s : State) (r : Requester) : Prop := ∃ a, s.aif.access = some a ∧ a.requester = r

theorem State.beginAccess_inFlightFor (s : State) (k : AccessKind) (r : Requester) (a : Addr) (d : Option Word) :
    (s.beginAccess k r a d).InFlightFor r := ⟨_, rfl, rfl⟩

theorem State.Works.burstGranted (h : s.Works t) (p : SpId) : s.Works (t.burstGranted p) := by
  unfold State.burstGranted
  split
  · exact h
  · rename_i b hb
    exact h.setBurst hb rfl

theorem State.grantPort_serves (t : State) (q : Port) (req : Request) :
    t.Serves (t.grantPort q req) ∧ (t.grantPort q req).InFlightFor (portRequester q) := by
  refine ⟨?_, State.beginAccess_inFlightFor _ _ _ _ _⟩
  unfold State.grantPort
  dsimp only
  split
  · exact ((State.Works.refl t).setPpPhase _).beginAccess _ _ _ _
  · exact ((State.Works.refl t).burstGranted _).beginAccess _ _ _ _

/-- The drain engine's entry changes with its phase as the engine's access begins (R36, R44). -/
theorem State.drainAccess_serves {t : State} {e : Fin 8} {x : Entry} {ph : DrainPhase} (he : t.mb.drain.entry = some e)
    (ha : x.addr = (t.mb.entry e).addr) (hf : drainFits ph x.state) (k : AccessKind) (a : Addr) (d : Option Word) :
    let u := (t.setMb { t.mb.setEntry e x with drain := { phase := ph, entry := some e } }).beginAccess k .dr a d
    t.Serves u ∧ u.InFlightFor .dr := by
  refine ⟨State.Works.beginAccess ?_ _ _ _ _, State.beginAccess_inFlightFor _ _ _ _ _⟩
  exact (State.Works.refl t).setMb fun hb => hb.setEntry_drain (hb.active_of_drain he) ha hf rfl rfl rfl

theorem State.grantDrain_serves (t : State) :
    t.grantDrain = t ∨ t.Serves t.grantDrain ∧ t.grantDrain.InFlightFor .dr := by
  unfold State.grantDrain
  split
  · exact .inl rfl
  · rename_i e he
    dsimp only
    split
    · exact .inr (State.drainAccess_serves he (by rfl) (by rfl) _ _ _)
    · exact .inr (State.drainAccess_serves he (by rfl) (by rfl) _ _ _)
    · exact .inr (State.drainAccess_serves he (by rfl) (by rfl) _ _ _)
    all_goals exact .inl rfl

theorem State.grantAtomic_serves (t : State) :
    t.grantAtomic = t ∨ t.Serves t.grantAtomic ∧ t.grantAtomic.InFlightFor .ae := by
  unfold State.grantAtomic
  split
  · exact .inl rfl
  · exact .inr ⟨((State.Works.refl t).setLockState _ _).beginAccess _ _ _ _, State.beginAccess_inFlightFor _ _ _ _ _⟩

/-- The scrub engine's request, granted, moves the engine alone. -/
theorem State.grantScrub_cases (t : State) :
    t.grantScrub = t ∨ ∃ x k a d, t.grantScrub = (t.setSce x).beginAccess k .sc a d := by
  unfold State.grantScrub
  cases t.sce.state with
  | patrolRequest | fillRequest => exact .inr ⟨_, _, _, _, rfl⟩
  | idle | patrolWait | patrolAccess | fillAccess => exact .inl rfl

/-- A grant empties the winner's slot and serves the winner; the winner's own account of its request may be at odds with
the slot, and then no access begins. -/
theorem State.grant_cases (s : State) :
    s.grant = s ∨
    ∃ r tier3, s.winner = some (r, tier3) ∧
      (s.grant = s.arbGrant r tier3 ∨
       (s.arbGrant r tier3).Serves s.grant ∧ s.grant.InFlightFor r ∨
       r = .sc ∧ ∃ x k a d, s.grant = ((s.arbGrant r tier3).setSce x).beginAccess k .sc a d) := by
  cases hw : s.winner with
  | none =>
    left
    simp only [State.grant, hw]
  | some w =>
    obtain ⟨r, tier3⟩ := w
    cases hq : s.arb.slots.get r with
    | none =>
      left
      simp only [State.grant, hw, hq]
    | some q =>
      refine .inr ⟨r, tier3, rfl, ?_⟩
      cases r with
      | pp =>
        have hgrant : s.grant = (s.arbGrant .pp tier3).grantPort .pp q := by simp only [State.grant, hw, hq]
        rw [hgrant]
        exact .inr (.inl (State.grantPort_serves _ _ _))
      | sp0 =>
        have hgrant : s.grant = (s.arbGrant .sp0 tier3).grantPort .sp0 q := by simp only [State.grant, hw, hq]
        rw [hgrant]
        exact .inr (.inl (State.grantPort_serves _ _ _))
      | sp1 =>
        have hgrant : s.grant = (s.arbGrant .sp1 tier3).grantPort .sp1 q := by simp only [State.grant, hw, hq]
        rw [hgrant]
        exact .inr (.inl (State.grantPort_serves _ _ _))
      | dr =>
        have hgrant : s.grant = (s.arbGrant .dr tier3).grantDrain := by simp only [State.grant, hw, hq]
        rw [hgrant]
        exact (State.grantDrain_serves _).imp_right .inl
      | ae =>
        have hgrant : s.grant = (s.arbGrant .ae tier3).grantAtomic := by simp only [State.grant, hw, hq]
        rw [hgrant]
        exact (State.grantAtomic_serves _).imp_right .inl
      | sc =>
        have hgrant : s.grant = (s.arbGrant .sc tier3).grantScrub := by simp only [State.grant, hw, hq]
        rw [hgrant]
        exact (State.grantScrub_cases _).imp_right fun h => .inr ⟨rfl, h⟩

theorem State.grant_lawful (s : State) : s.Lawful s.grant := by
  have harb : ∀ r tier3, s.Lawful (s.arbGrant r tier3) := fun r tier3 => (State.Lawful.refl s).setArb _
  rcases s.grant_cases with h | ⟨r, tier3, -, h | ⟨h, -⟩ | ⟨-, x, k, a, d, h⟩⟩
  · rw [h]
    exact .refl s
  · rw [h]
    exact harb r tier3
  · exact (harb r tier3).trans h.toLawful
  · rw [h]
    exact ((harb r tier3).setSce x).setAif _

/-- Every due event is lawful. -/
theorem State.fire_lawful {d : Due} (hd : d ∈ s.due) : s.Lawful (s.fire d) := by
  cases hspecial : d.isSpecial with
  | false => exact ((State.Works.refl s).fire hd hspecial).toLawful
  | true =>
    cases d with
    | grant => exact s.grant_lawful
    | intervalExpiry => exact ((State.Lawful.refl s).setSce _).setArb _
    | quiesce => exact ((State.Lawful.refl s).setCtl _).setIrq _
    | prqDispatch | srqDispatch p | linkTake p | lockRelease q | fenceRelease q | waiterAlloc | forcedSignal | flushDone
      | drainStart | resolveRequest | beatExpiry p => cases hspecial

/-! ### The scrub engine's completions (R162, R163, R167) -/

theorem State.Lawful.patrolEnd (h : s.Lawful t) : s.Lawful t.patrolEnd := by
  unfold State.patrolEnd
  dsimp only
  split
  · exact (h.setSce _).setIrq _
  · exact h.setSce _

theorem State.Lawful.fillNext (h : s.Lawful t) : s.Lawful t.fillNext := by
  unfold State.fillNext
  split_ifs
  · exact (h.setSce _).setIrq _
  · exact h.setSce _
  · exact (h.setSce _).setArb _

/-- The patrol's read ends the access or asks for the repair (R162). -/
theorem State.patrolReadDone_cases (s : State) (a : Access) :
    (∃ t, s.Serves t ∧ s.patrolReadDone a = t.patrolEnd) ∨ s.Serves (s.patrolReadDone a) := by
  have hreport := (State.Works.refl s).reportRead (s.readArray a.addr).2 .scrub a.addr .patrol none
  unfold State.patrolReadDone
  dsimp only
  cases hread : (s.readArray a.addr).2 with
  | clean | uncorrectable =>
    rw [hread] at hreport
    exact .inl ⟨_, hreport.endAccess, rfl⟩
  | corrected pos =>
    rw [hread] at hreport
    dsimp only
    split
    · exact .inl ⟨_, hreport.endAccess, rfl⟩
    · exact .inr (hreport.pairedWrite _ _ _)

theorem State.patrolReadDone_lawful (s : State) (a : Access) : s.Lawful (s.patrolReadDone a) := by
  rcases s.patrolReadDone_cases a with ⟨t, h, heq⟩ | h
  · rw [heq]
    exact h.toLawful.patrolEnd
  · exact h.toLawful

/-- A word stored at an access's end. -/
theorem State.storeWord_endAccess_serves (s : State) (a : Addr) (d : Word) : s.Serves (s.storeWord a d).endAccess :=
  ((State.Works.refl s).storeWord a d).endAccess

/-! ### The timers (R110, R152, R160) -/

theorem State.Works.tickPort (h : s.Works t) (p : SpId) : s.Works (t.tickPort p) := by
  unfold State.tickPort
  split
  · exact h.setSpFields rfl rfl rfl rfl
  · exact h

theorem State.Lawful.tickPatrol (h : s.Lawful t) : s.Lawful t.tickPatrol := by
  unfold State.tickPatrol
  split
  · exact h.setSce _
  · exact h

theorem State.completeTick_lawful (s : State) : s.Lawful s.completeTick :=
  (((State.Lawful.refl s).setCtl _).trans
    (((State.Works.refl _).tickPort .sp0).tickPort .sp1).toLawful).tickPatrol

/-! ### Reset (R198) -/

/-- A cut access leaves the array's word as before or written (R16). -/
theorem State.Lawful.cutOff (s : State) : s.Lawful s.cutOff := by
  have hfree : s.Lawful s.bumpFree := (State.Lawful.refl s).setOwn _
  have hcut : ∀ a : Access, s.Lawful
      (if Config.cutWriteStored s.own.freeCount then s.bumpFree.storeWord a.addr (a.writeData.getD 0#32)
       else s.bumpFree) := fun a => by
    split
    · exact hfree.trans ((State.Works.refl _).storeWord _ _).toLawful
    · exact hfree
  unfold State.cutOff
  split
  · exact hcut _
  · exact hcut _
  · exact .refl s

/-- The buffer after reset: every entry FREE, the drain engine IDLE. -/
theorem invBuffer_of_reset (h : s.mb = State.reset.mb) : InvBuffer s := by
  have hfree : ∀ e, (s.mb.entry e).active = false := by
    rw [h]
    decide
  refine ⟨fun e f he => ?_, ?_, fun e => ?_, ?_⟩
  · rw [hfree] at he
    cases he
  · rw [h]
    exact List.nodup_nil
  · rw [hfree, h]
    simp [State.reset]
  · rw [h]
    rfl

/-- The defaults meet every law of a block of their own, and the array is kept. -/
theorem State.deviceReset_lawful (s : State) : s.Lawful s.deviceReset where
  array := id
  queues _ := show InvQueues State.reset by unfold InvQueues; decide
  ports p _ := by cases p <;> exact .disabled rfl rfl rfl rfl
  buffer _ := invBuffer_of_reset rfl
  sequence _ := trivial

end Sys2Proof.Machine
end

section
/-! The laws at every step: the register writes, the commands and the rows, and the statements that follow. -/

namespace Sys2Proof.Machine

variable {s t u : State}

/-! ### Register writes -/

/-- The staging registers are outside the queues' law. -/
theorem State.Lawful.setStaging (h : s.Lawful t) {x : Ppt} (hprq : x.prq = t.ppt.prq) (hexec : x.exec = t.ppt.exec)
    (hcq : x.cq = t.ppt.cq) : s.Lawful (t.setPpt x) :=
  h.trans (.setPpt fun hq => by rw [hprq, hexec, hcq]; exact ⟨hq.1, hq.2.1⟩)

/-- A submit joins the PRQ only while there is room (R114). -/
theorem State.submit_lawful (s : State) : s.Lawful s.submit := by
  unfold State.submit
  split
  · exact (State.Lawful.refl s).setStaging rfl rfl rfl
  · split
    · refine .setPpt fun hq => ⟨?_, hq.2.1⟩
      simpa using Nat.succ_le_of_lt ‹_›
    · exact (State.Lawful.refl s).setStaging rfl rfl rfl

theorem State.writeSpConfig_works (s : State) (p : SpId) (v : Reg16) : s.Works (s.writeSpConfig p v) :=
  (State.Works.refl s).setSpFields rfl rfl rfl rfl

theorem State.Writes.lawful (h : s.Writes t) : s.Lawful t := by
  have hs := State.Lawful.refl s
  cases h with
  | ignored => exact hs
  | refused => exact hs.setCtl _
  | memsize => exact (hs.setCfg _).setSce _
  | prescale => exact (hs.setCfg _).setCtl _
  | watermarks => exact hs.setCfg _
  | enables => exact hs.setCfg _
  | staging x hprq hexec hcq => exact hs.setStaging hprq hexec hcq
  | submit => exact s.submit_lawful
  | regions => exact hs.setAcu _
  | spConfig p v => exact (s.writeSpConfig_works p v).toLawful
  | scrub => exact hs.setSce _
  | irq => exact hs.setIrq _

/-! ### Commands -/

theorem State.Lawful.scrubHalt (h : s.Lawful t) : s.Lawful t.scrubHalt := by
  unfold State.scrubHalt
  split
  · exact h
  · exact h.setSce _
  · exact (h.setArb _).setSce _
  · exact (h.setArb _).setSce _
  · exact h.setSce _
  · exact h.setSce _

/-- An enabled port, which was DISABLED and so empty, has 4 credits (R131). -/
theorem InvPort.enabled {x : StreamPort} (h : InvPort x) (hstate : x.state = .disabled) :
    InvPort { x with state := .enabled, credits := 4 } := by
  have hcount := h.2
  simp only [hstate] at hcount
  obtain ⟨-, hsrq, hburst⟩ := hcount
  refine ⟨fun b hb => ?_, ?_⟩
  · rw [hburst] at hb
    cases hb
  · show 4 + x.srq.length = 4
    rw [hsrq, List.length_nil]

theorem State.portEnable_works {p : SpId} (h : (s.sp p).state = .disabled) :
    s.Works ((s.setSp p { s.sp p with state := .enabled, credits := 4 }).send p [.credit 4]) := by
  refine .send ?_ p _
  exact (State.Works.refl s).setSp (fun hp => hp.enabled h) fun _ => id

/-- A resumed port keeps its credits (R134). -/
theorem InvPort.resumed {x : StreamPort} (h : InvPort x) (hstate : x.state = .suspended) :
    InvPort { x with state := .enabled } := by
  obtain ⟨hhead, hcount⟩ := h
  simp only [hstate] at hcount
  exact ⟨hhead, hcount⟩

theorem State.portResume_works {p : SpId} (h : (s.sp p).state = .suspended) :
    s.Works (s.setSp p { s.sp p with state := .enabled }) :=
  (State.Works.refl s).setSp (fun hp => hp.resumed h) fun _ => id

/-- The discard of a FAULTED entry: the drain engine's own entry is FAULTED only while a resolve write waits (R42). -/
theorem State.resolveDiscard_works {e : Fin 8} (h : (s.mb.entry e).state = .faulted) : s.Works (s.resolveDiscard e) := by
  unfold State.resolveDiscard
  split
  · refine .setSlot ?_ (by decide) _
    exact (State.Works.refl s).setMb fun hb => hb.release rfl rfl (MergeBuffer.drainLaw_none rfl)
  · rename_i hdrain
    refine (State.Works.refl s).setMb fun hb => hb.release rfl rfl ?_
    have hother : s.mb.drain.entry ≠ some e := fun he => by
      have hfits := hb.fits he
      rw [h] at hfits
      refine hdrain ?_
      cases hd : s.mb.drain with
      | mk ph en =>
        rw [hd] at hfits he
        cases ph <;> simp_all [drainFits]
    have hlaw := hb.drainLaw
    unfold MergeBuffer.DrainLaw at hlaw ⊢
    show match s.mb.drain.entry with
      | none => s.mb.drain.phase = .idle
      | some f => drainFits s.mb.drain.phase ((s.mb.setEntry e Entry.default).entry f).state
    cases hf : s.mb.drain.entry with
    | none => simpa only [hf] using hlaw
    | some f =>
      have hfe : f ≠ e := fun hfe => hother (by rw [hf, hfe])
      simp only [hf] at hlaw
      simpa only [MergeBuffer.setEntry_other _ hfe] using hlaw

theorem State.resolveForce_works (s : State) (e : Fin 8) :
    s.Works (s.setMb (s.mb.setEntry e (s.mb.entry e).force)) :=
  (State.Works.refl s).setMb fun hb => hb.setEntry_of_state rfl rfl

/-- Counting from a later number: a number that follows it loses the distance between the two. -/
theorem seqAfter_rebase {base next x : Reg16} (h : seqAfter base next ≤ seqAfter base x) :
    seqAfter next x = seqAfter base x - seqAfter base next := by
  unfold seqAfter at h ⊢
  bv_omega

/-- The records left after the oldest has been popped, numbered from the next one (R178). -/
theorem InvSequence.popped {r : ErrorRecord} {rest : List ErrorRecord} {x : ErrorLog} (h : InvSequence s)
    (hr : s.elog.records = r :: rest) (hrec : x.records = rest) (hseq : x.seq = s.elog.seq) :
    InvSequence (s.setElog x) := by
  unfold InvSequence at h ⊢
  rw [hr] at h
  simp only [State.setElog_elog]
  rw [hrec, hseq]
  cases rest with
  | nil => trivial
  | cons next later =>
    simp only [List.map_cons, List.pairwise_cons, List.mem_cons, List.mem_map, seqAfter_self, List.length_cons] at h ⊢
    obtain ⟨⟨hfirst, hsecond, hrise⟩, hbelow, hheld, hroom⟩ := h
    have hnext : 0 < seqAfter r.seq next.seq := hfirst _ (.inl rfl)
    have hle : ∀ y ∈ later, seqAfter r.seq next.seq ≤ seqAfter r.seq y.seq := fun y hy =>
      (hsecond _ ⟨y, hy, rfl⟩).le
    have hnextlt := hbelow next (.inr (.inl rfl))
    have hcounter : counterAfter next.seq s.elog.seq + seqAfter r.seq next.seq = counterAfter r.seq s.elog.seq := by
      unfold counterAfter seqAfter at *
      split <;> split <;> simp_all <;> bv_omega
    refine ⟨⟨?_, ?_⟩, ?_, by omega, by omega⟩
    · rintro _ ⟨y, hy, rfl⟩
      have := hsecond _ ⟨y, hy, rfl⟩
      rw [seqAfter_rebase (hle y hy)]
      omega
    · rw [List.pairwise_map] at hrise ⊢
      refine hrise.imp_of_mem fun {a b} ha hb hab => ?_
      rw [seqAfter_rebase (hle a ha), seqAfter_rebase (hle b hb)]
      have := hle a ha
      omega
    · rintro y (rfl | hy)
      · rw [seqAfter_self]
        omega
      · have := hbelow y (.inr (.inr hy))
        have := hle y hy
        rw [seqAfter_rebase (hle y hy)]
        omega

theorem State.logPop_works {r : ErrorRecord} {rest : List ErrorRecord} (h : s.elog.records = r :: rest) :
    s.Works (s.setElog { s.elog with records := rest, view := r.view }) :=
  (State.Works.refl s).setElog (fun hl => by rw [h, List.length_cons] at hl; exact Nat.le_of_succ_le hl)
    fun hs => hs.popped h rfl rfl

/-- The log's flag and counts are outside its laws. -/
theorem State.setElog_works {x : ErrorLog} (hrec : x.records = s.elog.records) (hseq : x.seq = s.elog.seq) :
    s.Works (s.setElog x) :=
  (State.Works.refl s).setElog (by rw [hrec]; exact id) fun hs => hs.of_records hrec hseq

theorem State.Commands.lawful (h : s.Commands t) : s.Lawful t := by
  have hs := State.Lawful.refl s
  cases h with
  | run => exact hs.setCtl _
  | halt => exact (hs.setCtl _).scrubHalt
  | haltAtOnce => exact ((hs.setCtl _).scrubHalt.setCtl _).setIrq _
  | portEnable p h => exact (State.portEnable_works h).toLawful
  | portDisable p h => exact (State.Works.portDisable s p).toLawful
  | portReset p => exact (State.Works.portReset s p).toLawful
  | portResume p h => exact (State.portResume_works h).toLawful
  | loadRegion n h => exact hs.setAcu _
  | viewRegion n => exact hs.setAcu _
  | viewEntry e => exact ((State.Works.refl s).setMbFields (by rfl) (by rfl) (by rfl)).toLawful
  | resolveDiscard e h => exact (State.resolveDiscard_works h).toLawful
  | resolveForce e h => exact (s.resolveForce_works e).toLawful
  | scrubStart => exact hs.setSce _
  | scrubStopWait => exact hs.setSce _
  | scrubStopRequest => exact (hs.setArb _).setSce _
  | stopPending => exact hs.setSce _
  | fillStart => exact (hs.setSce _).setArb _
  | fillStopRequest => exact (hs.setArb _).setSce _
  | logPop r rest h => exact (State.logPop_works h).toLawful
  | logClearOverflow => exact (State.setElog_works (by rfl) (by rfl)).toLawful
  | clearCounts => exact (State.setElog_works (by rfl) (by rfl)).toLawful

/-! ### Rows -/

theorem State.popCompletion_lawful (s : State) : s.Lawful s.popCompletion := by
  unfold State.popCompletion
  split
  · exact (State.Lawful.refl s).setCtl _
  · rename_i c rest hcq
    refine State.Lawful.setCtl ?_ _
    refine State.Lawful.setPpt fun hq => ⟨hq.1, ?_⟩
    have := hq.2.1
    rw [hcq, List.length_cons] at this
    dsimp only
    omega

/-- Every row is lawful. -/
theorem State.Acts.lawful (h : s.Acts t) : s.Lawful t := by
  have hs := State.Lawful.refl s
  cases h with
  | nothing => exact hs
  | reset => exact (State.Lawful.cutOff s).trans (State.deviceReset_lawful _)
  | release => exact hs.setReset _
  | disturb a flips =>
    exact ⟨fun ha => s.disturb_wf a flips ha, id, fun p hp => by cases p <;> exact hp, id, id⟩
  | tick => exact s.completeTick_lawful
  | period => exact hs.setCtl _
  | drive => exact hs.setCtl _
  | ctrlStatus => exact hs.setCtl _
  | cplPop => exact s.popCompletion_lawful
  | register h => exact h.lawful
  | command h code => exact h.lawful.setCtl _
  | refusal r code => exact hs.setCtl _
  | frame p f => exact ((State.Works.refl s).arrive p f).toLawful
  | ppRead a => exact (s.ppReadDone_serves a).toLawful
  | streamRead p a => exact (s.streamReadDone_serves a p).toLawful
  | drainRead a => exact (s.drainReadDone_ends a).serves.toLawful
  | drainWrite a => exact (s.drainWriteDone_ends a).serves.toLawful
  | atomicRead a => exact (s.atomicReadDone_serves a).toLawful
  | atomicWrite a => exact (s.atomicWriteDone_serves a).toLawful
  | patrolRead a => exact s.patrolReadDone_lawful a
  | patrolWrite a => exact (s.storeWord_endAccess_serves _ _).toLawful.patrolEnd
  | fillWrite a => exact (s.storeWord_endAccess_serves _ _).toLawful.fillNext

/-- A law that every lawful change keeps is kept at every step. -/
theorem keptBySteps_of_lawful {P : State → Prop} (hP : ∀ s t : State, s.Lawful t → P s → P t) : KeptBySteps P where
  own s o := hP _ _ ((State.Lawful.refl s).setOwn o)
  pending s q := hP _ _ ((State.Lawful.refl s).setPending q)
  fire _ _ hd := hP _ _ (State.fire_lawful hd)
  acts _ _ h := hP _ _ h.lawful

/-- Settles O52: a row or an event of the part's own stores a word, disturbs one, or leaves the array alone. -/
theorem arrayFormKept : Obligations.ArrayFormKept := by
  unfold Obligations.ArrayFormKept
  exact (keptBySteps_of_lawful fun _ _ h => h.array).step

/-- Settles O53: what joins a queue finds room, a dispatch leaves its place in the Completion Queue. -/
theorem queueSizesKept : Obligations.QueueSizesKept := by
  unfold Obligations.QueueSizesKept
  exact (keptBySteps_of_lawful fun _ _ h => h.queues).step

/-- Settles O54: each port's law is kept by every operation on the port. -/
theorem creditLawKept : Obligations.CreditLawKept := by
  unfold Obligations.CreditLawKept
  exact (keptBySteps_of_lawful fun _ _ h hp => invPorts_iff.2 fun p => h.ports p (invPorts_iff.1 hp p)).step

/-- Settles O55: an entry is allocated for a new word alone, and changes its state with the drain engine's phase. -/
theorem bufferLawsKept : Obligations.BufferLawsKept := by
  unfold Obligations.BufferLawsKept
  exact (keptBySteps_of_lawful fun _ _ h => h.buffer).step

/-- Settles O57: a kept record takes the counter's number, a dropped one passes it over while that cannot wrap, and a pop
counts on from the next record. -/
theorem sequenceLawKept : Obligations.SequenceLawKept := by
  unfold Obligations.SequenceLawKept
  exact (keptBySteps_of_lawful fun _ _ h => h.sequence).step

end Sys2Proof.Machine
end

section
/-! The settings, the bypass count and HALTED at every step. -/

namespace Sys2Proof.Machine

variable {s t u : State}

/-! ### The settings (R4, R33, R90, R110, R111) -/

/-- The law speaks of the settings, the region table and the prescale count. -/
theorem InvSettings.of_same (h : InvSettings s) (hcfg : t.cfg = s.cfg) (hregions : t.acu.regions = s.acu.regions)
    (hcount : t.ctl.prescaleCount = s.ctl.prescaleCount) : InvSettings t := by
  unfold InvSettings at h ⊢
  rw [hcfg, hregions, hcount]
  exact h

theorem InvSettings.of_serves (h : InvSettings s) (hserves : s.Serves t) : InvSettings t :=
  h.of_same hserves.cfg (by rw [hserves.acu]) (by rw [hserves.ctl])

theorem InvSettings.of_works (h : InvSettings s) (hworks : s.Works t) : InvSettings t :=
  h.of_same hworks.cfg (by rw [hworks.acu]) (by rw [hworks.ctl])

/-- A grant leaves the controller alone. -/
theorem State.grant_ctl (s : State) : s.grant.ctl = s.ctl := by
  rcases s.grant_cases with h | ⟨r, tier3, -, h | ⟨h, -⟩ | ⟨-, x, k, a, d, h⟩⟩
  · rw [h]
  · rw [h]
    rfl
  · exact h.ctl
  · rw [h]
    rfl

/-- No due event moves the prescale count. -/
theorem State.fire_prescaleCount {d : Due} (hd : d ∈ s.due) : (s.fire d).ctl.prescaleCount = s.ctl.prescaleCount := by
  cases hspecial : d.isSpecial with
  | false => rw [((State.Works.refl s).fire hd hspecial).ctl]
  | true =>
    cases d with
    | grant => exact congrArg _ s.grant_ctl
    | intervalExpiry => rfl
    | quiesce => rfl
    | prqDispatch | srqDispatch p | linkTake p | lockRelease q | fenceRelease q | waiterAlloc | forcedSignal | flushDone
      | drainStart | resolveRequest | beatExpiry p => cases hspecial

theorem InvSettings.scrubHalt (h : InvSettings s) : InvSettings s.scrubHalt := by
  unfold State.scrubHalt
  split <;> exact h.of_same rfl rfl rfl

theorem InvSettings.writes (h : InvSettings s) (hw : s.Writes t) : InvSettings t := by
  obtain ⟨hmem, hlow, hhigh, hcount, hlwm, horder, hhwm, hregions⟩ := h
  cases hw with
  | ignored | refused | enables | scrub | irq | staging =>
    exact ⟨hmem, hlow, hhigh, hcount, hlwm, horder, hhwm, hregions⟩
  | memsize code ptr hs hc => exact ⟨hc, hlow, hhigh, hcount, hlwm, horder, hhwm, hregions⟩
  | prescale v hs h1 h2 =>
    refine ⟨hmem, h1, h2, ?_, hlwm, horder, hhwm, hregions⟩
    show 0 < v.toNat
    bv_omega
  | watermarks l h hs h1 h2 h3 => exact ⟨hmem, hlow, hhigh, hcount, h1, h2, h3, hregions⟩
  | submit =>
    unfold State.submit
    split
    · exact ⟨hmem, hlow, hhigh, hcount, hlwm, horder, hhwm, hregions⟩
    · split <;> exact ⟨hmem, hlow, hhigh, hcount, hlwm, horder, hhwm, hregions⟩
  | regions x hx =>
    exact InvSettings.of_same ⟨hmem, hlow, hhigh, hcount, hlwm, horder, hhwm, hregions⟩ rfl hx rfl
  | spConfig p v =>
    exact InvSettings.of_works ⟨hmem, hlow, hhigh, hcount, hlwm, horder, hhwm, hregions⟩ (s.writeSpConfig_works p v)

/-- A loaded region's last block is not below its first (R96). -/
theorem InvSettings.loadRegion (h : InvSettings s) {n : Fin 16} {x : Acu} {d : Region}
    (hx : x.regions = s.acu.regions.set n d) (hd : d.first ≤ d.last) : InvSettings (s.setAcu x) := by
  obtain ⟨hmem, hlow, hhigh, hcount, hlwm, horder, hhwm, hregions⟩ := h
  refine ⟨hmem, hlow, hhigh, hcount, hlwm, horder, hhwm, fun m => ?_⟩
  show x.regions[m].first ≤ x.regions[m].last
  rw [hx]
  by_cases hm : m = n
  · subst hm
    simpa using hd
  · have hne : (n : Nat) ≠ m := fun h => hm (Fin.ext h.symm)
    simpa [Vector.getElem_set, hne] using hregions m

theorem InvSettings.commands (h : InvSettings s) (hc : s.Commands t) : InvSettings t := by
  cases hc with
  | run | viewRegion n | scrubStart | scrubStopWait | scrubStopRequest | stopPending | fillStart | fillStopRequest =>
    exact h.of_same rfl rfl rfl
  | halt => exact InvSettings.scrubHalt (h.of_same rfl rfl rfl)
  | haltAtOnce =>
    have hhalt : InvSettings (s.setCtl { s.ctl with state := .quiescing }).scrubHalt :=
      InvSettings.scrubHalt (h.of_same rfl rfl rfl)
    exact hhalt.of_same rfl rfl rfl
  | portEnable p hp => exact h.of_works (State.portEnable_works hp)
  | portDisable p => exact h.of_works (State.Works.portDisable s p)
  | portReset p => exact h.of_works (State.Works.portReset s p)
  | portResume p hp => exact h.of_works (State.portResume_works hp)
  | loadRegion n hn => exact h.loadRegion rfl (by simpa [Region.ofStaged] using BitVec.not_lt.1 hn)
  | viewEntry e => exact h.of_same rfl rfl rfl
  | resolveDiscard e he => exact h.of_works (State.resolveDiscard_works he)
  | resolveForce e => exact h.of_works (s.resolveForce_works e)
  | logPop | logClearOverflow | clearCounts => exact h.of_same rfl rfl rfl

theorem InvSettings.patrolEnd (h : InvSettings s) : InvSettings s.patrolEnd := by
  unfold State.patrolEnd
  dsimp only
  split <;> exact h.of_same rfl rfl rfl

theorem InvSettings.fillNext (h : InvSettings s) : InvSettings s.fillNext := by
  unfold State.fillNext
  split_ifs <;> exact h.of_same rfl rfl rfl

theorem InvSettings.tickPatrol (h : InvSettings s) : InvSettings s.tickPatrol := by
  unfold State.tickPatrol
  split
  · exact h.of_same rfl rfl rfl
  · exact h

/-- A tick returns the prescale count to 0 (R110). -/
theorem InvSettings.completeTick (h : InvSettings s) : InvSettings s.completeTick := by
  obtain ⟨hmem, hlow, hhigh, -, hlwm, horder, hhwm, hregions⟩ := h
  have hzero : InvSettings (s.setCtl { s.ctl with prescaleCount := 0 }) := by
    refine ⟨hmem, hlow, hhigh, ?_, hlwm, horder, hhwm, hregions⟩
    show 0 < s.cfg.prescale.toNat
    bv_omega
  exact (hzero.of_works (((State.Works.refl _).tickPort .sp0).tickPort .sp1)).tickPatrol

/-- Short of its last value, the prescale count may advance (R110). -/
theorem InvSettings.period (h : InvSettings s) (hlast : s.lastPeriod = false) :
    InvSettings (s.setCtl { s.ctl with prescaleCount := s.ctl.prescaleCount + 1 }) := by
  obtain ⟨hmem, hlow, hhigh, hcount, hlwm, horder, hhwm, hregions⟩ := h
  refine ⟨hmem, hlow, hhigh, ?_, hlwm, horder, hhwm, hregions⟩
  have hne : s.ctl.prescaleCount + 1 ≠ s.cfg.prescale.toNat := by simpa [State.lastPeriod] using hlast
  show s.ctl.prescaleCount + 1 < s.cfg.prescale.toNat
  omega

theorem invSettings_reset : InvSettings State.reset := by
  unfold InvSettings
  decide

theorem State.popCompletion_same (s : State) : s.popCompletion.cfg = s.cfg ∧ s.popCompletion.acu = s.acu ∧
    s.popCompletion.ctl.prescaleCount = s.ctl.prescaleCount ∧ s.popCompletion.arb = s.arb := by
  unfold State.popCompletion
  split <;> exact ⟨rfl, rfl, rfl, rfl⟩

theorem InvSettings.acts (h : InvSettings s) (ha : s.Acts t) : InvSettings t := by
  cases ha with
  | nothing => exact h
  | reset => exact invSettings_reset.of_same rfl rfl rfl
  | release | disturb | drive | ctrlStatus | refusal => exact h.of_same rfl rfl rfl
  | tick => exact h.completeTick
  | period hlast => exact h.period hlast
  | cplPop =>
    obtain ⟨hcfg, hacu, hcount, -⟩ := s.popCompletion_same
    exact h.of_same hcfg (by rw [hacu]) hcount
  | register hw => exact h.writes hw
  | command hc code => exact (h.commands hc).of_same rfl rfl rfl
  | frame p f => exact h.of_works ((State.Works.refl s).arrive p f)
  | ppRead a => exact h.of_serves (s.ppReadDone_serves a)
  | streamRead p a => exact h.of_serves (s.streamReadDone_serves a p)
  | drainRead a => exact h.of_serves (s.drainReadDone_ends a).serves
  | drainWrite a => exact h.of_serves (s.drainWriteDone_ends a).serves
  | atomicRead a => exact h.of_serves (s.atomicReadDone_serves a)
  | atomicWrite a => exact h.of_serves (s.atomicWriteDone_serves a)
  | patrolRead a =>
    rcases s.patrolReadDone_cases a with ⟨u, hu, heq⟩ | hu
    · rw [heq]
      exact (h.of_serves hu).patrolEnd
    · exact h.of_serves hu
  | patrolWrite a => exact (h.of_serves (s.storeWord_endAccess_serves _ _)).patrolEnd
  | fillWrite a => exact (h.of_serves (s.storeWord_endAccess_serves _ _)).fillNext

theorem invSettings_kept : KeptBySteps InvSettings where
  own _ _ := id
  pending _ _ := id
  fire s d hd h := h.of_same (s.fire_kept d).cfg (by rw [(s.fire_kept d).acu]) (State.fire_prescaleCount hd)
  acts _ _ ha h := h.acts ha

/-! ### The bypass count (R80) -/

/-- The law speaks of the scrub engine's slot and of the count. -/
theorem InvBypass.of_same (h : InvBypass s) (hslot : t.arb.slots.sc = s.arb.slots.sc) (hcount : t.arb.bypass = s.arb.bypass) :
    InvBypass t := by
  unfold InvBypass at h ⊢
  rw [hslot, hcount]
  exact h

theorem InvBypass.of_serves (h : InvBypass s) (hserves : s.Serves t) : InvBypass t :=
  h.of_same hserves.scrubSlot hserves.bypass

theorem InvBypass.of_works (h : InvBypass s) (hworks : s.Works t) : InvBypass t :=
  h.of_same hworks.scrubSlot hworks.bypass

/-- A request of the scrub engine keeps the count. -/
theorem InvBypass.request (h : InvBypass s) (k : AccessKind) (a : Addr) : InvBypass (s.request .sc k a) :=
  ⟨h.1, nofun⟩

/-- A withdrawn request takes its count along (R80). -/
theorem invBypass_withdrawScrub (s : State) : InvBypass s.withdrawScrub := ⟨Nat.zero_le _, fun _ => rfl⟩

/-- A grant counts for a scrub request that waits on, and no further than 16 (R80). -/
theorem InvBypass.arbGrant (h : InvBypass s) (r : Requester) (tier3 : Bool) : InvBypass (s.arbGrant r tier3) := by
  obtain ⟨hmax, hnone⟩ := h
  cases hslot : s.arb.slots.sc with
  | none =>
    have hcount : (s.arbGrant r tier3).arb.bypass = 0 := by
      simp [State.arbGrant, Arbiter.bypassAfter, hslot, hnone hslot]
    exact ⟨by omega, fun _ => hcount⟩
  | some q =>
    by_cases hr : r = .sc
    · have hcount : (s.arbGrant r tier3).arb.bypass = 0 := by simp [State.arbGrant, Arbiter.bypassAfter, hslot, hr]
      exact ⟨by omega, fun _ => hcount⟩
    · have hcount : (s.arbGrant r tier3).arb.bypass = min (s.arb.bypass + 1) 16 := by
        simp [State.arbGrant, Arbiter.bypassAfter, hslot, hr]
      have hkept : (s.arbGrant r tier3).arb.slots.sc = some q :=
        (s.arb.slots.put_other (q := .sc) (Ne.symm hr) none).trans hslot
      refine ⟨by omega, fun hempty => ?_⟩
      rw [hkept] at hempty
      cases hempty

theorem InvBypass.grant (h : InvBypass s) : InvBypass s.grant := by
  rcases s.grant_cases with heq | ⟨r, tier3, -, heq | ⟨hserves, -⟩ | ⟨-, x, k, a, d, heq⟩⟩
  · rwa [heq]
  · rw [heq]
    exact h.arbGrant r tier3
  · exact (h.arbGrant r tier3).of_serves hserves
  · rw [heq]
    exact (h.arbGrant r tier3).of_same rfl rfl

theorem InvBypass.fire (h : InvBypass s) {d : Due} (hd : d ∈ s.due) : InvBypass (s.fire d) := by
  cases hspecial : d.isSpecial with
  | false => exact h.of_works ((State.Works.refl s).fire hd hspecial)
  | true =>
    cases d with
    | grant => exact h.grant
    | intervalExpiry => exact InvBypass.request (h.of_same rfl rfl) _ _
    | quiesce => exact h.of_same rfl rfl
    | prqDispatch | srqDispatch p | linkTake p | lockRelease q | fenceRelease q | waiterAlloc | forcedSignal | flushDone
      | drainStart | resolveRequest | beatExpiry p => cases hspecial

theorem InvBypass.scrubHalt (h : InvBypass s) : InvBypass s.scrubHalt := by
  unfold State.scrubHalt
  split
  · exact h
  · exact h.of_same rfl rfl
  · exact (invBypass_withdrawScrub s).of_same rfl rfl
  · exact (invBypass_withdrawScrub s).of_same rfl rfl
  · exact h.of_same rfl rfl
  · exact h.of_same rfl rfl

theorem InvBypass.writes (h : InvBypass s) (hw : s.Writes t) : InvBypass t := by
  cases hw with
  | ignored | refused | memsize | prescale | watermarks | enables | staging | regions | scrub | irq =>
    exact h.of_same rfl rfl
  | submit =>
    unfold State.submit
    split
    · exact h.of_same rfl rfl
    · split <;> exact h.of_same rfl rfl
  | spConfig p v => exact h.of_works (s.writeSpConfig_works p v)

theorem InvBypass.commands (h : InvBypass s) (hc : s.Commands t) : InvBypass t := by
  cases hc with
  | run | loadRegion | viewRegion | viewEntry | scrubStart | scrubStopWait | stopPending | logPop | logClearOverflow
    | clearCounts => exact h.of_same rfl rfl
  | halt => exact InvBypass.scrubHalt (h.of_same rfl rfl)
  | haltAtOnce =>
    have hhalt : InvBypass (s.setCtl { s.ctl with state := .quiescing }).scrubHalt :=
      InvBypass.scrubHalt (h.of_same rfl rfl)
    exact hhalt.of_same rfl rfl
  | portEnable p hp => exact h.of_works (State.portEnable_works hp)
  | portDisable p => exact h.of_works (State.Works.portDisable s p)
  | portReset p => exact h.of_works (State.Works.portReset s p)
  | portResume p hp => exact h.of_works (State.portResume_works hp)
  | resolveDiscard e he => exact h.of_works (State.resolveDiscard_works he)
  | resolveForce e => exact h.of_works (s.resolveForce_works e)
  | scrubStopRequest => exact (invBypass_withdrawScrub s).of_same rfl rfl
  | fillStopRequest => exact (invBypass_withdrawScrub s).of_same rfl rfl
  | fillStart => exact InvBypass.request (h.of_same rfl rfl) _ _

theorem InvBypass.patrolEnd (h : InvBypass s) : InvBypass s.patrolEnd := by
  unfold State.patrolEnd
  dsimp only
  split <;> exact h.of_same rfl rfl

theorem InvBypass.fillNext (h : InvBypass s) : InvBypass s.fillNext := by
  unfold State.fillNext
  split_ifs
  · exact h.of_same rfl rfl
  · exact h.of_same rfl rfl
  · exact InvBypass.request (h.of_same rfl rfl) _ _

theorem InvBypass.tickPatrol (h : InvBypass s) : InvBypass s.tickPatrol := by
  unfold State.tickPatrol
  split
  · exact h.of_same rfl rfl
  · exact h

theorem InvBypass.completeTick (h : InvBypass s) : InvBypass s.completeTick := by
  have hzero : InvBypass (s.setCtl { s.ctl with prescaleCount := 0 }) := h.of_same rfl rfl
  exact (hzero.of_works (((State.Works.refl _).tickPort .sp0).tickPort .sp1)).tickPatrol

theorem InvBypass.acts (h : InvBypass s) (ha : s.Acts t) : InvBypass t := by
  cases ha with
  | nothing => exact h
  | reset => exact ⟨Nat.zero_le _, fun _ => rfl⟩
  | release | disturb | period | drive | ctrlStatus | refusal => exact h.of_same rfl rfl
  | tick => exact h.completeTick
  | cplPop =>
    obtain ⟨-, -, -, harb⟩ := s.popCompletion_same
    exact h.of_same (by rw [harb]) (by rw [harb])
  | register hw => exact h.writes hw
  | command hc code => exact (h.commands hc).of_same rfl rfl
  | frame p f => exact h.of_works ((State.Works.refl s).arrive p f)
  | ppRead a => exact h.of_serves (s.ppReadDone_serves a)
  | streamRead p a => exact h.of_serves (s.streamReadDone_serves a p)
  | drainRead a => exact h.of_serves (s.drainReadDone_ends a).serves
  | drainWrite a => exact h.of_serves (s.drainWriteDone_ends a).serves
  | atomicRead a => exact h.of_serves (s.atomicReadDone_serves a)
  | atomicWrite a => exact h.of_serves (s.atomicWriteDone_serves a)
  | patrolRead a =>
    rcases s.patrolReadDone_cases a with ⟨u, hu, heq⟩ | hu
    · rw [heq]
      exact (h.of_serves hu).patrolEnd
    · exact h.of_serves hu
  | patrolWrite a => exact (h.of_serves (s.storeWord_endAccess_serves _ _)).patrolEnd
  | fillWrite a => exact (h.of_serves (s.storeWord_endAccess_serves _ _)).fillNext

theorem invBypass_kept : KeptBySteps InvBypass where
  own _ _ := id
  pending _ _ := id
  fire _ _ hd h := h.fire hd
  acts _ _ ha h := h.acts ha

/-- Settles O59: a configuration write is taken only with legal values, and a withdrawn or granted scrub request takes its
bypass count along. -/
theorem settingsAndBypassKept : Obligations.SettingsAndBypassKept := by
  unfold Obligations.SettingsAndBypassKept
  exact ⟨invSettings_kept.step, invBypass_kept.step⟩

end Sys2Proof.Machine
end

section
/-! HALTED at every step (R83, R102, R105), and the laws after device reset. -/

namespace Sys2Proof.Machine

variable {s t u : State}

theorem invHalted_iff :
    InvHalted s ↔
      (s.aif.state = .idle → s.aif.access = none) ∧
      (s.ctl.state = .halted →
        s.Quiet ∧ s.sce.state = .idle ∧ ∀ a, s.aif.access = some a → a.requester = .dr) := by
  have hbursts : (∀ p, (s.sp p).burst = none) ↔ s.sp0.burst = none ∧ s.sp1.burst = none :=
    ⟨fun h => ⟨h .sp0, h .sp1⟩, fun h p => by cases p; exacts [h.1, h.2]⟩
  simp only [InvHalted, State.Quiet, hbursts, and_assoc]

theorem InvHalted.access (h : InvHalted s) : s.aif.state = .idle → s.aif.access = none := h.1

/-- In HALTED nothing is in progress but a resolve write. -/
theorem InvHalted.halted (h : InvHalted s) (hs : s.ctl.state = .halted) :
    s.Quiet ∧ s.sce.state = .idle ∧ ∀ a, s.aif.access = some a → a.requester = .dr := (invHalted_iff.1 h).2 hs

theorem InvHalted.of_same (h : InvHalted s) (hctl : t.ctl.state = s.ctl.state) (haif : t.aif = s.aif)
    (hsce : t.sce.state = s.sce.state) (hquiet : s.ctl.state = .halted → s.Quiet → t.Quiet) : InvHalted t := by
  refine invHalted_iff.2 ⟨by rw [haif]; exact h.access, fun hs => ?_⟩
  rw [hctl] at hs
  obtain ⟨hq, hidle, howner⟩ := h.halted hs
  exact ⟨hquiet hs hq, by rw [hsce, hidle], by rw [haif]; exact howner⟩

theorem InvHalted.of_works (h : InvHalted s) (hworks : s.Works t) : InvHalted t :=
  h.of_same (by rw [hworks.ctl]) hworks.aif (by rw [hworks.sce]) hworks.quiet

/-- Out of HALTED only an IDLE interface matters. -/
theorem InvHalted.of_running (hctl : t.ctl.state ≠ .halted) (haccess : t.aif.state = .idle → t.aif.access = none) :
    InvHalted t := ⟨haccess, fun hs => absurd hs hctl⟩

/-- Serving the interface keeps the law when in HALTED the drain engine alone has the access. -/
theorem InvHalted.of_serves (h : InvHalted s) (hserves : s.Serves t)
    (howner : s.ctl.state = .halted → ∀ a, t.aif.access = some a → a.requester = .dr) : InvHalted t := by
  refine invHalted_iff.2 ⟨hserves.access, fun hs => ?_⟩
  rw [hserves.ctl] at hs
  obtain ⟨hq, hidle, -⟩ := h.halted hs
  exact ⟨hserves.quiet hs hq, by rw [hserves.sce, hidle], howner hs⟩

theorem InvHalted.of_ends (h : InvHalted s) (hends : s.Ends t) : InvHalted t :=
  h.of_serves hends.serves fun _ a ha => by
    rw [hends.aif] at ha
    cases ha

/-- An access of another requester than the drain engine is not in flight in HALTED. -/
theorem InvHalted.not_halted (h : InvHalted s) {st : AifState} {r : Requester} {a : Access} (ha : s.inFlight st r = some a)
    (hr : r ≠ .dr) : s.ctl.state ≠ .halted := fun hs => by
  obtain ⟨-, haccess, howner⟩ := State.inFlight_some ha
  exact hr (howner ▸ (h.halted hs).2.2 a haccess)

theorem InvHalted.of_serves_of_inFlight (h : InvHalted s) (hserves : s.Serves t) {st : AifState} {r : Requester}
    {a : Access} (ha : s.inFlight st r = some a) (hr : r ≠ .dr) : InvHalted t :=
  h.of_serves hserves fun hs => absurd hs (h.not_halted ha hr)

/-! ### The part's own events -/

/-- The quiesce conditions are what HALTED asks for (R105). -/
theorem InvHalted.quiesced (h : InvHalted s) (hq : s.quiesced = true) : InvHalted s.quiesceComplete := by
  obtain ⟨hexec, ⟨h0, h1⟩, hlocks, -, hidle, hsce⟩ := State.quiesced_iff.1 hq
  refine ⟨h.access, fun _ => ⟨hexec, h0, h1, hlocks, hsce, fun a ha => ?_⟩⟩
  have ha : s.aif.access = some a := ha
  rw [h.access hidle] at ha
  cases ha

/-- In HALTED the drain engine alone can win, and its access is its own (R83). -/
theorem InvHalted.grant (h : InvHalted s) : InvHalted s.grant := by
  have harb : ∀ r tier3, InvHalted (s.arbGrant r tier3) := fun r tier3 => h.of_same rfl rfl rfl fun _ => id
  rcases s.grant_cases with heq | ⟨r, tier3, hwinner, heq | ⟨hserves, a, ha, howner⟩ | ⟨hr, x, k, a, d, heq⟩⟩
  · rwa [heq]
  · rw [heq]
    exact harb r tier3
  · refine (harb r tier3).of_serves hserves fun hs b hb => ?_
    obtain ⟨hdr, -⟩ := State.grantable_halted (s := s) hs (State.winner_grantable hwinner)
    rw [ha] at hb
    cases hb
    rw [howner, hdr]
  · rw [heq]
    refine InvHalted.of_running (fun hs => ?_) fun hbusy => ?_
    · obtain ⟨hdr, -⟩ := State.grantable_halted (s := s) hs (State.winner_grantable hwinner)
      rw [hr] at hdr
      cases hdr
    · cases k <;> cases hbusy

theorem InvHalted.fire (h : InvHalted s) {d : Due} (hd : d ∈ s.due) : InvHalted (s.fire d) := by
  have hcond := State.dueCondition_of_due hd
  cases hspecial : d.isSpecial with
  | false => exact h.of_works ((State.Works.refl s).fire hd hspecial)
  | true =>
    cases d with
    | grant => exact h.grant
    | intervalExpiry =>
      simp only [State.dueCondition, State.intervalReady, Bool.and_eq_true, beq_iff_eq] at hcond
      refine InvHalted.of_running (fun hs => ?_) h.access
      have := (h.halted hs).2.1
      rw [hcond.2] at this
      cases this
    | quiesce =>
      simp only [State.dueCondition, State.quiesceReady, Bool.and_eq_true] at hcond
      exact h.quiesced hcond.2
    | prqDispatch | srqDispatch p | linkTake p | lockRelease q | fenceRelease q | waiterAlloc | forcedSignal | flushDone
      | drainStart | resolveRequest | beatExpiry p => cases hspecial

/-! ### Register writes and commands -/

theorem InvHalted.writes (h : InvHalted s) (hw : s.Writes t) : InvHalted t := by
  cases hw with
  | ignored | refused | memsize | prescale | watermarks | enables | regions | irq =>
    exact h.of_same rfl rfl rfl fun _ => id
  | staging x hprq hexec hcq => exact h.of_same rfl rfl rfl fun _ hq => ⟨hexec.trans hq.1, hq.2⟩
  | submit =>
    unfold State.submit
    split
    · exact h.of_same rfl rfl rfl fun _ => id
    · split <;> exact h.of_same rfl rfl rfl fun _ => id
  | spConfig p v => exact h.of_works (s.writeSpConfig_works p v)
  | scrub x hx => exact h.of_same rfl rfl hx fun _ => id

theorem State.scrubHalt_ctl (s : State) : s.scrubHalt.ctl = s.ctl := by
  unfold State.scrubHalt
  split <;> rfl

theorem State.scrubHalt_aif (s : State) : s.scrubHalt.aif = s.aif := by
  unfold State.scrubHalt
  split <;> rfl

/-- A HALT leaves the part QUIESCING (R104, R171). -/
theorem InvHalted.halting (h : InvHalted s) : InvHalted (s.setCtl { s.ctl with state := .quiescing }).scrubHalt := by
  refine InvHalted.of_running ?_ ?_
  · rw [State.scrubHalt_ctl]
    nofun
  · rw [State.scrubHalt_aif]
    exact h.access

/-- The scrub engine may always go IDLE. -/
theorem InvHalted.scrubIdle (h : InvHalted s) (hctl : t.ctl = s.ctl) (haif : t.aif = s.aif) (hsce : t.sce.state = .idle)
    (hquiet : s.Quiet → t.Quiet) : InvHalted t := by
  by_cases hs : s.ctl.state = .halted
  · exact h.of_same (by rw [hctl]) haif (by rw [hsce, (h.halted hs).2.1]) fun _ => hquiet
  · exact InvHalted.of_running (by rwa [hctl]) (by rw [haif]; exact h.access)

theorem InvHalted.commands (h : InvHalted s) (hc : s.Commands t) : InvHalted t := by
  cases hc with
  | run => exact InvHalted.of_running nofun h.access
  | halt => exact h.halting
  | haltAtOnce hrun hq => exact h.halting.quiesced hq
  | portEnable p hp => exact h.of_works (State.portEnable_works hp)
  | portDisable p => exact h.of_works (State.Works.portDisable s p)
  | portReset p => exact h.of_works (State.Works.portReset s p)
  | portResume p hp => exact h.of_works (State.portResume_works hp)
  | loadRegion | viewRegion | viewEntry => exact h.of_same rfl rfl rfl fun _ => id
  | resolveDiscard e he => exact h.of_works (State.resolveDiscard_works he)
  | resolveForce e => exact h.of_works (s.resolveForce_works e)
  | scrubStart hrun =>
    refine InvHalted.of_running (fun hs => ?_) h.access
    have hs : s.ctl.state = .halted := hs
    rw [hrun] at hs
    cases hs
  | fillStart hrun =>
    refine InvHalted.of_running (fun hs => ?_) h.access
    have hs : s.ctl.state = .halted := hs
    rw [hrun] at hs
    cases hs
  | scrubStopWait => exact h.scrubIdle rfl rfl rfl id
  | scrubStopRequest => exact h.scrubIdle rfl rfl rfl id
  | fillStopRequest => exact h.scrubIdle rfl rfl rfl id
  | stopPending => exact h.of_same rfl rfl rfl fun _ => id
  | logPop | logClearOverflow | clearCounts => exact h.of_same rfl rfl rfl fun _ => id

/-! ### Rows -/

theorem State.patrolEnd_ctl (s : State) : s.patrolEnd.ctl = s.ctl := by
  unfold State.patrolEnd
  dsimp only
  split <;> rfl

theorem State.patrolEnd_aif (s : State) : s.patrolEnd.aif = s.aif := by
  unfold State.patrolEnd
  dsimp only
  split <;> rfl

theorem State.fillNext_ctl (s : State) : s.fillNext.ctl = s.ctl := by
  unfold State.fillNext
  split_ifs <;> rfl

theorem State.fillNext_aif (s : State) : s.fillNext.aif = s.aif := by
  unfold State.fillNext
  split_ifs <;> rfl

/-- The patrol has an access in flight out of HALTED alone. -/
theorem InvHalted.patrolEnd (h : InvHalted s) (hs : s.ctl.state ≠ .halted) : InvHalted s.patrolEnd :=
  InvHalted.of_running (by rwa [State.patrolEnd_ctl]) (by rw [State.patrolEnd_aif]; exact h.access)

theorem InvHalted.fillNext (h : InvHalted s) (hs : s.ctl.state ≠ .halted) : InvHalted s.fillNext :=
  InvHalted.of_running (by rwa [State.fillNext_ctl]) (by rw [State.fillNext_aif]; exact h.access)

theorem InvHalted.completeTick (h : InvHalted s) : InvHalted s.completeTick := by
  have hports := InvHalted.of_works
    (InvHalted.of_same (t := s.setCtl { s.ctl with prescaleCount := 0 }) h rfl rfl rfl fun _ => id)
    (((State.Works.refl _).tickPort .sp0).tickPort .sp1)
  unfold State.completeTick State.tickPatrol
  split
  · exact hports.of_same rfl rfl rfl fun _ => id
  · exact hports

theorem State.Quiet.of_sp (hq : s.Quiet) (hexec : t.ppt.exec = s.ppt.exec) (hsp : ∀ p, t.sp p = s.sp p)
    (hlocks : t.wlt = s.wlt) : t.Quiet :=
  ⟨hexec.trans hq.1, fun p => by rw [hsp]; exact hq.2.1 p, hlocks.trans hq.2.2⟩

theorem invHalted_reset : InvHalted State.reset := by
  unfold InvHalted
  exact ⟨fun _ => rfl, fun _ => ⟨rfl, rfl, rfl, rfl, rfl, nofun⟩⟩

theorem InvHalted.acts (h : InvHalted s) (ha : s.Acts t) : InvHalted t := by
  cases ha with
  | nothing => exact h
  | reset => exact invHalted_reset.of_same rfl rfl rfl fun _ => id
  | release | disturb | period | drive | ctrlStatus | refusal => exact h.of_same rfl rfl rfl fun _ => id
  | tick => exact h.completeTick
  | cplPop =>
    unfold State.popCompletion
    split <;> exact h.of_same rfl rfl rfl fun _ => id
  | register hw => exact h.writes hw
  | command hc code => exact (h.commands hc).of_same rfl rfl rfl fun _ => id
  | frame p f => exact h.of_works ((State.Works.refl s).arrive p f)
  | ppRead a ha => exact h.of_serves_of_inFlight (s.ppReadDone_serves a) ha (by decide)
  | streamRead p a ha => exact h.of_serves_of_inFlight (s.streamReadDone_serves a p) ha (by cases p <;> decide)
  | drainRead a => exact h.of_ends (s.drainReadDone_ends a)
  | drainWrite a => exact h.of_ends (s.drainWriteDone_ends a)
  | atomicRead a ha => exact h.of_serves_of_inFlight (s.atomicReadDone_serves a) ha (by decide)
  | atomicWrite a ha => exact h.of_serves_of_inFlight (s.atomicWriteDone_serves a) ha (by decide)
  | patrolRead a ha =>
    rcases s.patrolReadDone_cases a with ⟨u, hu, heq⟩ | hu
    · rw [heq]
      exact (h.of_serves_of_inFlight hu ha (by decide)).patrolEnd (by rw [hu.ctl]; exact h.not_halted ha (by decide))
    · exact h.of_serves_of_inFlight hu ha (by decide)
  | patrolWrite a ha =>
    have hstored := s.storeWord_endAccess_serves a.addr (a.writeData.getD 0#32)
    exact (h.of_serves_of_inFlight hstored ha (by decide)).patrolEnd (by rw [hstored.ctl]; exact h.not_halted ha (by decide))
  | fillWrite a ha =>
    have hstored := s.storeWord_endAccess_serves a.addr (a.writeData.getD 0#32)
    exact (h.of_serves_of_inFlight hstored ha (by decide)).fillNext (by rw [hstored.ctl]; exact h.not_halted ha (by decide))

theorem invHalted_kept : KeptBySteps InvHalted where
  own _ _ h := h.of_same rfl rfl rfl fun _ => id
  pending _ _ h := h.of_same rfl rfl rfl fun _ => id
  fire _ _ hd h := h.fire hd
  acts _ _ ha h := h.acts ha

/-- Settles O56: work within the part sets nothing in progress in HALTED, a grant there serves the drain engine alone, and
the controller enters HALTED when the quiesce conditions hold. -/
theorem haltedLawKept : Obligations.HaltedLawKept := by
  unfold Obligations.HaltedLawKept
  exact invHalted_kept.step

/-- Settles O60, law by law from the defaults. -/
theorem resetMeetsTheLaws : Obligations.ResetMeetsTheLaws := by
  unfold Obligations.ResetMeetsTheLaws
  have hdefault : InvPort StreamPort.default := .disabled rfl rfl rfl rfl
  refine ⟨rfl, ?_, ⟨hdefault, hdefault⟩, invBuffer_of_reset rfl, invHalted_reset, trivial, List.nodup_nil, invSettings_reset,
    Nat.zero_le _, fun _ => rfl⟩
  exact ⟨Nat.zero_le _, Nat.zero_le _, Nat.zero_le _⟩

end Sys2Proof.Machine
end

section
/-! The step, reset, the registers' layouts and the link frames (chapters 01 and 10). -/

namespace Sys2Proof.Machine

variable {s : State}

/-! ### The step -/

/-- Settles O1: the front command is the one a step runs. -/
theorem stepRunsFrontCommand : Obligations.StepRunsFrontCommand := by
  unfold Obligations.StepRunsFrontCommand
  exact fun _ _ => rfl

/-- Settling takes one of the events that pass the test, after a free choice or none. -/
theorem State.settleOne_of_due {keep : State → Due → Bool} (h : ∃ d ∈ s.due, keep s d = true) :
    ∃ d ∈ s.due, keep s d = true ∧ (s.settleOne keep = s.fire d ∨ s.settleOne keep = s.bumpFree.fire d) := by
  obtain ⟨d, hd, hkeep⟩ := h
  unfold State.settleOne
  have hmem : ∀ x ∈ s.due.filter (keep s), x ∈ s.due ∧ keep s x = true := fun x => List.mem_filter.1
  split
  · rename_i hnone
    have := List.mem_filter.2 ⟨hd, hkeep⟩
    rw [hnone] at this
    cases this
  · rename_i x hone
    obtain ⟨hx, hkx⟩ := hmem x (by rw [hone]; exact List.mem_singleton_self x)
    exact ⟨x, hx, hkx, .inl rfl⟩
  · rename_i x rest _ hmany
    obtain ⟨hx, hkx⟩ := hmem ((x :: rest).getD (Config.order s.own.freeCount % (x :: rest).length) x)
      (by rw [hmany]; exact getD_mem _ _ x List.mem_cons_self)
    exact ⟨_, hx, hkx, .inr rfl⟩

theorem step_of_empty (h : s.pending = []) : step s = .next (s.settleOne fun _ _ => true) := by
  simp only [step, h]

/-- Settles O2: one settled event at a time, and settling by its own recursion. -/
theorem emptyQueueTakesDueEvent : Obligations.EmptyQueueTakesDueEvent := by
  unfold Obligations.EmptyQueueTakesDueEvent
  refine ⟨fun s hs => ⟨fun hd => ?_, fun d hd => ?_, fun hd => ?_⟩, fun s => ?_, fun s keep n => ⟨?_, fun h => ?_⟩⟩
  · simp [step_of_empty hs, State.settleOne, hd]
  · simp [step_of_empty hs, State.settleOne, hd]
  · obtain ⟨x, hx⟩ := List.exists_mem_of_ne_nil _ hd
    obtain ⟨d, hmem, -, heq⟩ := State.settleOne_of_due (keep := fun _ _ => true) ⟨x, hx, rfl⟩
    rw [step_of_empty hs]
    exact ⟨d, hmem, heq.imp (congrArg _) (congrArg _)⟩
  · refine ⟨rfl, rfl, rfl, rfl, fun d => ?_, fun d => ?_, by unfold State.settleFuel; omega, fun hd => ?_⟩
    · cases d <;> simp [Due.isLockRelease]
    · simp [State.openGrant]
    · exact ⟨State.eventStart_of_due_nil hd, State.eventTogether_of_due_nil hd, State.eventStartBy_of_due_nil hd true⟩
  · exact fun h => State.settleWith_of_none h n
  · obtain ⟨x, hx, hkx⟩ := h
    obtain ⟨d, hmem, hkeep, heq⟩ := State.settleOne_of_due ⟨x, hx, hkx⟩
    refine ⟨d, hmem, hkeep, ?_⟩
    rw [State.settleWith_succ hx hkx]
    exact heq.imp (congrArg (State.settleWith keep n)) (congrArg (State.settleWith keep n))

/-! ### Reset (R16, R192, R198, R199) -/

/-- Settles O3, offset by offset. -/
theorem resetRegisterValues : Obligations.ResetRegisterValues := by
  unfold Obligations.ResetRegisterValues
  decide

/-- A cut access leaves the state as it is but for the count of free values and, of a write, its word. -/
theorem State.cutOff_cases (s : State) :
    (s.cutOff.pending = s.pending) ∧
    (s.cutOff.array = s.array ∨
     ∃ a, (s.aif.state = .writing ∨ s.aif.state = .pairedWrite) ∧ s.aif.access = some a ∧
       s.cutOff.array = (s.storeWord a.addr (a.writeData.getD 0#32)).array) := by
  have hcut : ∀ a : Access,
      (if Config.cutWriteStored s.own.freeCount then s.bumpFree.storeWord a.addr (a.writeData.getD 0#32)
        else s.bumpFree).pending = s.pending ∧
      ((if Config.cutWriteStored s.own.freeCount then s.bumpFree.storeWord a.addr (a.writeData.getD 0#32)
        else s.bumpFree).array = s.array ∨
       (if Config.cutWriteStored s.own.freeCount then s.bumpFree.storeWord a.addr (a.writeData.getD 0#32)
        else s.bumpFree).array = (s.storeWord a.addr (a.writeData.getD 0#32)).array) := fun a => by
    split
    · exact ⟨rfl, .inr rfl⟩
    · exact ⟨rfl, .inl rfl⟩
  unfold State.cutOff
  split
  · rename_i a hstate haccess
    exact ⟨(hcut a).1, (hcut a).2.imp_right fun h => ⟨a, .inl hstate, haccess, h⟩⟩
  · rename_i a hstate haccess
    exact ⟨(hcut a).1, (hcut a).2.imp_right fun h => ⟨a, .inr hstate, haccess, h⟩⟩
  · exact ⟨rfl, .inl rfl⟩

theorem State.wordAt_congr {s t : State} (h : t.array = s.array) (a : Addr) : t.wordAt a = s.wordAt a := by
  unfold State.wordAt
  rw [h]

/-- Settles O4: the defaults over the array that the cut access leaves. -/
theorem resetAssertTakesDefaults : Obligations.ResetAssertTakesDefaults := by
  unfold Obligations.ResetAssertTakesDefaults
  refine fun s => ⟨fun hr => congrArg _ (State.outside_of_reset hr _), fun hr => ?_⟩
  dsimp only
  obtain ⟨hpending, harray⟩ := s.eventStart.cutOff_cases
  have hwords : ∀ {t : State} (a : Addr), t.array = s.array → t.wordAt a = s.wordAt a := fun a h => State.wordAt_congr h a
  have hstart : s.eventStart.array = s.array := s.eventStart_array
  refine ⟨s.eventStart.cutOff.deviceReset, congrArg _ (State.outside_of_release hr _), ?_, rfl, rfl, fun a hnot => ?_,
    fun x d hstate haccess hdata => ?_⟩
  · rw [State.eventStart_pending] at hpending
    rw [← hpending]
    rfl
  · rcases harray with hkept | ⟨x, hstate, haccess, hstored⟩
    · exact hwords a (hkept.trans hstart)
    · have hne : a ≠ x.addr := fun ha => hnot ⟨hstate, x, haccess, ha.symm⟩
      have hword := State.storeWord_wordAt_other s.eventStart (x.writeData.getD 0#32) hne
      exact (State.wordAt_congr hstored a).trans (hword.trans (hwords a hstart))
  · rcases harray with hkept | ⟨y, -, haccess', hstored⟩
    · exact .inl (hwords _ (hkept.trans hstart))
    · rw [haccess] at haccess'
      cases haccess'
      right
      have hword := State.storeWord_wordAt_same s.eventStart x.addr (x.writeData.getD 0#32)
      rw [hdata] at hword hstored
      exact (State.wordAt_congr hstored _).trans hword

/-- While RESET is asserted a row from outside, of the part's own or of the bus, changes nothing (R198). -/
theorem exec_of_reset (hr : s.resetAsserted = true) {c : Instr} (hrelease : c ≠ .resetRelease)
    (hdisturb : ∀ a x, c ≠ .arrayDisturbance a x) (hread : ∀ b, c ≠ .ctrlStatusRead b ∧ c ≠ .cplPop b) :
    exec c s = .next s := by
  have houtside : ∀ f, s.outside f = s := State.outside_of_reset hr
  have hinternal : ∀ d, s.internal d = s := fun d => State.internal_of_not_due (by rw [State.due_of_reset hr]; nofun)
  have hwrite : ∀ b f, s.busWrite b f = s := State.busWrite_of_reset hr
  have hframe : ∀ p f t, s.frameTaken p f t = s := State.frameTaken_of_reset hr
  cases c with
  | resetRelease => exact absurd rfl hrelease
  | arrayDisturbance a x => exact absurd rfl (hdisturb a x)
  | ctrlStatusRead b => exact absurd rfl (hread b).1
  | cplPop b => exact absurd rfl (hread b).2
  | resetAssert | tick | refclkPeriod | ppReadCompletion | streamReadCompletion | drainReadCompletion | drainWriteCompletion
    | atomicReadCompletion | atomicWriteCompletion | patrolReadCompletion | patrolWriteCompletion | fillWriteCompletion =>
    exact congrArg _ (houtside _)
  | beatTimerExpiry | intervalExpiry | prqDispatch | srqDispatch | arrayGrant | drainStart | resolveWriteRequest
    | lockHoldRelease | fenceHoldRelease | waitingWriterAllocation | forcedDrainSignal | flushCompletion
    | quiesceComplete =>
    exact congrArg _ (hinternal _)
  | header | writeBeat | abort | discardedFrame => exact congrArg _ (hframe _ _ _)
  | reqSubmit | cfgMemsizeWrite | cfgPrescaleWrite | cfgWatermarksWrite | cfgProtectWrite | irqPendingWrite | registerWrite
    | run | halt | portEnable | portDisable | portReset | portResume | loadRegion | viewRegion | viewEntry
    | resolveDiscard | resolveForce | scrubStart | scrubStop | fillStart | fillStop | logPop | logClearOverflow
    | clearCounts | unknownCommand =>
    exact congrArg _ (hwrite _ _)

/-- While RESET is asserted a read access returns 0000h, and does nothing else (R198). -/
theorem State.busRead_of_reset (hr : s.resetAsserted = true) (b : Bus) (f : State → State) :
    s.busRead b f = if busAccess b then s.drive 0#16 else s := by
  simp only [State.busRead, hr, if_true]

/-- Settles O5, by the wrapper of each row. -/
theorem releaseAndHeldReset : Obligations.ReleaseAndHeldReset := by
  unfold Obligations.ReleaseAndHeldReset
  refine fun s => ⟨rfl, fun t hr ht => ?_, fun hr c hrelease hdisturb => ⟨fun b hc => ?_, ?_⟩, fun hr => ⟨?_, ?_, ?_⟩⟩
  · have hassert : t = s.eventStart.cutOff.deviceReset :=
      (Host.Outcome.next.inj ((congrArg _ (State.outside_of_release hr _)).symm.trans ht)).symm
    obtain ⟨hpending, -⟩ := s.eventStart.cutOff_cases
    rw [State.eventStart_pending] at hpending
    rw [hassert, ← hpending]
    rfl
  · have hexec : exec c s = .next (if busAccess b then s.drive 0#16 else s) := by
      rcases hc with rfl | rfl <;> exact congrArg _ (State.busRead_of_reset hr b _)
    rw [hexec]
    refine ⟨fun h1 h2 h3 => ?_, fun h => ?_⟩
    · simp [busAccess, h1, h2, h3, State.drive, State.setCtl]
    · rcases h with h | h | h <;> simp [busAccess, h]
  · exact exec_of_reset hr hrelease hdisturb
  · exact State.due_of_reset hr
  · simp [State.intPin, hr]
  · exact fun off => by simp [State.windowRead, hr]

end Sys2Proof.Machine
end

section
/-! The registers' layouts, the link frames and the memory bus (chapters 01 and 10). -/

namespace Sys2Proof.Machine

variable {s : State}

/-! ### Layouts (Tables 10-3, 10-5 to 10-8) -/

/-- A flag at a bit position. -/
theorem bool_toNat_weight (n : Nat) (b : Bool) : n * b.toNat = if b then n else 0 := by cases b <;> simp

theorem isSome_toNat_weight {α : Type} (n : Nat) (x : Option α) [Decidable (x = none)] :
    n * x.isSome.toNat = if x = none then 0 else n := by
  cases x with
  | none => simp
  | some y => simp

theorem beq_toNat_weight {α : Type} [DecidableEq α] (n : Nat) (x y : α) : n * (x == y).toNat = if x = y then n else 0 := by
  by_cases h : x = y <;> simp [h]

theorem ofNat_toNat_flag (b : Bool) : BitVec.ofNat 16 b.toNat = if b then 1#16 else 0#16 := by cases b <;> rfl

theorem State.queueLevels_eq (s : State) :
    s.queueLevels =
      BitVec.ofNat 16 (s.ppt.prq.length + (if s.ppt.exec = none then 0 else 8) + 256 * s.ppt.cq.length) := by
  rw [State.queueLevels, isSome_toNat_weight]

/-- The FAULTED entries, entry by entry (R49). -/
theorem packBits_faulted (s : State) :
    packBits (entryIds.map fun e => (s.mb.entry e).state == .faulted) =
      (if (s.mb.entry 0).state = .faulted then 1 else 0) + (if (s.mb.entry 1).state = .faulted then 2 else 0) +
      (if (s.mb.entry 2).state = .faulted then 4 else 0) + (if (s.mb.entry 3).state = .faulted then 8 else 0) +
      (if (s.mb.entry 4).state = .faulted then 16 else 0) + (if (s.mb.entry 5).state = .faulted then 32 else 0) +
      (if (s.mb.entry 6).state = .faulted then 64 else 0) + (if (s.mb.entry 7).state = .faulted then 128 else 0) := by
  simp only [entryIds, List.map_cons, List.map_nil, packBits, ← beq_toNat_weight]
  omega

theorem State.mbSummary_eq (s : State) :
    s.mbSummary = BitVec.ofNat 16
      ((if (s.mb.entry 0).state = .faulted then 1 else 0) + (if (s.mb.entry 1).state = .faulted then 2 else 0) +
      (if (s.mb.entry 2).state = .faulted then 4 else 0) + (if (s.mb.entry 3).state = .faulted then 8 else 0) +
      (if (s.mb.entry 4).state = .faulted then 16 else 0) + (if (s.mb.entry 5).state = .faulted then 32 else 0) +
      (if (s.mb.entry 6).state = .faulted then 64 else 0) + (if (s.mb.entry 7).state = .faulted then 128 else 0) +
      256 * s.mb.count (fun e => e.state == .pending) + 4096 * s.mb.count (fun e => e.state == .reading) +
      8192 * s.mb.count (fun e => e.state == .writing) + 16384 * s.mb.waiting.length) := by
  rw [State.mbSummary, packBits_faulted]

theorem StreamPort.statusLo_eq (sp : StreamPort) :
    sp.statusLo = BitVec.ofNat 16
      (sp.state.code + 4 * sp.srq.length + 32 * sp.credits + 256 * sp.cause.code +
      (if sp.burst = none then 0 else 2048) + (if sp.discardedRead = none then 0 else 4096)) := by
  simp only [StreamPort.statusLo, isSome_toNat_weight]

theorem StreamPort.statusHi_eq (sp : StreamPort) :
    sp.statusHi = BitVec.ofNat 16
      (match sp.burst with
      | none => 0
      | some b => b.hdr.tag.toNat + 16 * b.hdr.op.code + 128 * b.phase.code + 2048 * b.done) := by
  unfold StreamPort.statusHi
  cases sp.burst <;> rfl

theorem StreamPort.config_eq (sp : StreamPort) :
    sp.config = BitVec.ofNat 16 (sp.beatTimeout.toNat + (if sp.suspendOnFault then 256 else 0)) := by
  rw [StreamPort.config, bool_toNat_weight]

theorem Scrub.status_eq (x : Scrub) :
    x.status = BitVec.ofNat 16
      (x.state.code + (if x.stopPending then 8 else 0) + 16 * x.lastMode.code + 64 * x.fillResult.code) := by
  rw [Scrub.status, bool_toNat_weight]

theorem ErrorLog.status_eq (x : ErrorLog) :
    x.status = BitVec.ofNat 16 (x.records.length + (if x.overflow then 256 else 0)) := by
  rw [ErrorLog.status, bool_toNat_weight]

/-- The offsets that name a register which reads a value of its own (Table 10-2). -/
def namedOffsets : List Nat :=
  [0x00, 0x01, 0x03, 0x08, 0x09, 0x0A, 0x0B, 0x0C, 0x10, 0x11, 0x12, 0x13, 0x14, 0x15, 0x16, 0x18, 0x19, 0x1C, 0x1D, 0x1E,
   0x20, 0x21, 0x22, 0x24, 0x25, 0x26, 0x28, 0x29, 0x2A, 0x2B, 0x2C, 0x2D, 0x30, 0x31, 0x32, 0x34, 0x35, 0x36, 0x38, 0x39,
   0x3A, 0x3B, 0x3C, 0x40, 0x41, 0x42, 0x43, 0x44, 0x45, 0x48, 0x49, 0x4A, 0x4B, 0x4C, 0x4D, 0x4E, 0x4F, 0x50, 0x51]

/-- Every other offset reads 0000h (R189). -/
theorem State.regRead_of_unnamed {off : BitVec 7} (h : off.toNat ∉ namedOffsets) : s.regRead off = 0#16 := by
  unfold State.regRead
  split <;> first | rfl | (rename_i hoff; exact absurd (by rw [hoff]; decide) h)

/-- Settles O6: each layout's equation, the offsets that name none, and the record's fields one by one. -/
theorem registerLayouts : Obligations.RegisterLayouts := by
  unfold Obligations.RegisterLayouts
  refine ⟨fun s => ?_, fun r => ?_, rfl, rfl, rfl, rfl, rfl, rfl, rfl, rfl, rfl, rfl, rfl, rfl, rfl, rfl, rfl, rfl, rfl⟩
  · intro lo hi addrLo addrHi pointer summary status burst config fields
    refine ⟨?_, fun off hoff h1 hcpl hirq => State.regRead_of_unnamed ?_, fun hr off => ?_⟩
    · simp only [fields, List.forall_mem_append, List.forall_mem_cons]
      refine ⟨⟨⟨⟨rfl, rfl, rfl, rfl, rfl, ofNat_toNat_flag _, ofNat_toNat_flag _, rfl, rfl, rfl, rfl, rfl, rfl, rfl, rfl, nofun⟩,
        ⟨s.queueLevels_eq, rfl, rfl, rfl, rfl, rfl, rfl, rfl, rfl, s.mbSummary_eq, rfl, rfl, rfl, rfl, rfl, nofun⟩⟩,
        ⟨s.sp0.statusLo_eq, s.sp0.statusHi_eq, s.sp0.config_eq, s.sp1.statusLo_eq, s.sp1.statusHi_eq, s.sp1.config_eq,
        s.sce.status_eq, rfl, rfl, rfl, rfl, rfl, rfl, rfl, rfl, rfl, rfl, nofun⟩⟩,
        ⟨s.elog.status_eq, rfl, rfl, rfl, rfl, rfl, rfl, rfl, rfl, nofun⟩⟩
    · have hnames : ∀ o : BitVec 7, o ∉ fields.map (·.1) → o ≠ 0x01#7 → o ≠ 0x1C#7 → o ≠ 0x50#7 →
          o.toNat ∉ namedOffsets := by
        simp only [fields, List.map_append, List.map_cons, List.map_nil]
        decide
      exact hnames off hoff h1 hcpl hirq
    · simp [State.windowRead, hr]
  · obtain ⟨_, kind, _, _, access, pos, tag, entry, mask, cause⟩ := r
    cases kind with
    | corrected | uncorrectable => cases access <;> cases tag <;> cases pos <;> rfl
    | alignFault | addressFault | regionFault => cases access <;> cases tag <;> rfl
    | mergeFault => cases entry <;> cases mask <;> rfl
    | protocol => cases access <;> cases tag <;> cases cause <;> rfl

/-! ### The link frames (Tables 10-11 and 10-12) -/

/-- A field of a frame at a bit position. -/
def frameField {w : Nat} (k : Nat) (x : BitVec w) : Frame := x.setWidth 48 <<< k

section
variable {w : Nat} {k : Nat} (x : BitVec w)

theorem getLsbD_frameField {i : Nat} (hi : i < 48) :
    (frameField k x).getLsbD i = (decide (k ≤ i) && x.getLsbD (i - k)) := by
  by_cases h : i < k
  · have hnot : ¬ k ≤ i := by omega
    simp [frameField, BitVec.getLsbD_shiftLeft, h, hnot]
  · have hle : k ≤ i := by omega
    simp [frameField, hi, h, hle]

/-- The field is read back where it stands. -/
theorem extractLsb'_frameField_same (h : k + w ≤ 48) : (frameField k x).extractLsb' k w = x := by
  refine BitVec.eq_of_getLsbD_eq fun i hi => ?_
  rw [BitVec.getLsbD_extractLsb', getLsbD_frameField x (by omega)]
  simp [hi]

/-- Bits below the field are 0. -/
theorem extractLsb'_frameField_below {lo len : Nat} (h : lo + len ≤ k) (hlen : lo + len ≤ 48) :
    (frameField k x).extractLsb' lo len = 0#len := by
  refine BitVec.eq_of_getLsbD_eq fun i hi => ?_
  have hki : ¬ k ≤ lo + i := by omega
  rw [BitVec.getLsbD_extractLsb', getLsbD_frameField x (by omega)]
  simp [hki]

/-- Bits above the field are 0. -/
theorem extractLsb'_frameField_above {lo len : Nat} (h : k + w ≤ lo) (hlen : lo + len ≤ 48) :
    (frameField k x).extractLsb' lo len = 0#len := by
  refine BitVec.eq_of_getLsbD_eq fun i hi => ?_
  have habove : x.getLsbD (lo + i - k) = false := BitVec.getLsbD_of_ge _ _ (by omega)
  rw [BitVec.getLsbD_extractLsb', getLsbD_frameField x (by omega), habove]
  simp

end

theorem extractLsb'_or_frame (f g : Frame) (lo len : Nat) :
    (f ||| g).extractLsb' lo len = f.extractLsb' lo len ||| g.extractLsb' lo len := BitVec.extractLsb'_or

theorem LinkMsg.frame_credit (n : Nat) : (LinkMsg.credit n).frame = frameField 0 1#4 ||| frameField 4 (BitVec.ofNat 3 n) := by
  have hcount : BitVec.ofNat 48 (n % 8) = (BitVec.ofNat 3 n).setWidth 48 := by
    refine BitVec.eq_of_toNat_eq ?_
    simp only [BitVec.toNat_ofNat, BitVec.toNat_setWidth]
  rw [LinkMsg.frame, hcount]
  rfl

theorem LinkMsg.frame_dataRequest (t : Tag) : (LinkMsg.dataRequest t).frame = frameField 0 3#4 ||| frameField 4 t := rfl

theorem LinkMsg.frame_readBeat (t : Tag) (d : Word) (st : BeatStatus) :
    (LinkMsg.readBeat t d st).frame =
      frameField 0 4#4 ||| frameField 4 t ||| frameField 8 (BitVec.ofNat 2 st.code) ||| frameField 12 d := by
  have hcode : BitVec.ofNat 48 st.code = (BitVec.ofNat 2 st.code).setWidth 48 := by cases st <;> rfl
  rw [LinkMsg.frame, hcode]
  rfl

theorem LinkMsg.frame_endMsg (t : Tag) (st : EndStatus) (n : Nat) :
    (LinkMsg.endMsg t st n).frame =
      frameField 0 5#4 ||| frameField 4 t ||| frameField 8 (BitVec.ofNat 4 st.code) ||| frameField 12 (BitVec.ofNat 5 n) := by
  have hcode : BitVec.ofNat 48 st.code = (BitVec.ofNat 4 st.code).setWidth 48 := by cases st <;> rfl
  have hcount : BitVec.ofNat 48 (n % 32) = (BitVec.ofNat 5 n).setWidth 48 := by
    refine BitVec.eq_of_toNat_eq ?_
    simp only [BitVec.toNat_ofNat, BitVec.toNat_setWidth]
  rw [LinkMsg.frame, hcode, hcount]
  rfl

/-- The header's parity, over bits 35:4 (R196). -/
theorem headerParityOdd_iff (f : Frame) :
    headerParityOdd f = true ↔ ((List.range' 4 32).filter fun k => f.getLsbD k).length % 2 = 1 := by
  have hrange : List.range' 4 32 = (List.range 32).map (4 + ·) := by decide
  rw [hrange, List.filter_map, List.length_map]
  simp [headerParityOdd, Function.comp_def]

theorem extractLsb'_append_low {m n : Nat} (c : BitVec m) (d : BitVec n) : (c ++ d).extractLsb' 0 n = d := by
  refine BitVec.eq_of_getLsbD_eq fun i hi => ?_
  simp [BitVec.getLsbD_append, hi]

theorem extractLsb'_append_high {m n : Nat} (c : BitVec m) (d : BitVec n) : (c ++ d).extractLsb' n m = c := by
  refine BitVec.eq_of_getLsbD_eq fun i hi => ?_
  simp [BitVec.getLsbD_append, hi]

/-- The lines of a write carry the data and its check bits (R1, R7). -/
theorem StoredWord.fresh_bits (a : Addr) (d : Word) :
    (StoredWord.fresh d).bits a = (Config.checkBits d ++ d : BitVec 39) := by
  simp [StoredWord.bits, StoredWord.fresh, StoredWord.stored]

/-- Settles O7: each frame as its fields set side by side, and the bus by the interface's state. -/
theorem linkFramesAndMemoryBus : Obligations.LinkFramesAndMemoryBus := by
  unfold Obligations.LinkFramesAndMemoryBus
  refine ⟨fun f => ⟨rfl, rfl, rfl, rfl, rfl, headerParityOdd_iff f, rfl, rfl, rfl⟩, fun n => ?credit, rfl, fun t => ?request,
    fun t d st => ?beat, fun t st n => ?last, rfl, rfl, fun s => ⟨fun hs => ?_, fun a ha hs => ?_, fun a d ha hd hs => ?_⟩⟩
  case credit =>
    simp [LinkMsg.frame_credit, extractLsb'_or_frame, extractLsb'_frameField_same, extractLsb'_frameField_below,
      extractLsb'_frameField_above]
  case request =>
    simp [LinkMsg.frame_dataRequest, extractLsb'_or_frame, extractLsb'_frameField_same, extractLsb'_frameField_below,
      extractLsb'_frameField_above]
  case beat =>
    simp [LinkMsg.frame_readBeat, extractLsb'_or_frame, extractLsb'_frameField_same, extractLsb'_frameField_below,
      extractLsb'_frameField_above]
  case last =>
    simp [LinkMsg.frame_endMsg, extractLsb'_or_frame, extractLsb'_frameField_same, extractLsb'_frameField_below,
      extractLsb'_frameField_above]
  · simp [State.memBus, hs]
  · rcases hs with hs | hs <;> simp [State.memBus, hs, ha]
  · refine ⟨(StoredWord.fresh d).bits a.addr, ?_, ?_, ?_⟩
    · rcases hs with hs | hs <;> simp [State.memBus, hs, ha, hd]
    · rw [StoredWord.fresh_bits]
      exact extractLsb'_append_low (Config.checkBits d) d
    · rw [StoredWord.fresh_bits]
      exact extractLsb'_append_high (Config.checkBits d) d

end Sys2Proof.Machine
end

section
/-! The timebase, the register writes with a behaviour of their own and the interrupt unit (chapters 06, 09 and 10). -/

namespace Sys2Proof.Machine

variable {s t : State}

/-! ### The timebase (R110, R152, R160) -/

/-- The beat timer runs by its port alone. -/
theorem State.timerRuns_congr {p : SpId} (h : t.sp p = s.sp p) : t.timerRuns p = s.timerRuns p := by
  simp only [State.timerRuns, State.beatOnLink, State.matchingBeat, h]

theorem State.timerRuns_iff {p : SpId} :
    s.timerRuns p = true ↔
      (s.sp p).beatTimeout ≠ 0#8 ∧ s.beatOnLink p = false ∧
      ∃ x, (s.sp p).burst = some x ∧ (x.phase = .beatWait ∨ x.phase = .operandWait) := by
  unfold State.timerRuns
  cases (s.sp p).burst with
  | none => simp
  | some x => simp [and_assoc, and_comm, and_left_comm]

/-- A port whose beat timer has counted a tick. -/
def StreamPort.ticked (x : StreamPort) : StreamPort :=
  { x with timer := x.timer + 1, expiryDue := x.beatTimeout.toNat ≤ x.timer + 1 }

theorem State.tickPort_of_runs {p : SpId} (h : s.timerRuns p = true) : s.tickPort p = s.setSp p (s.sp p).ticked := by
  simp only [State.tickPort, h, if_true]
  rfl

theorem State.tickPort_of_stands {p : SpId} (h : s.timerRuns p = false) : s.tickPort p = s := by
  simp [State.tickPort, h]

theorem State.tickPort_sp_other {p q : SpId} (h : q ≠ p) : (s.tickPort p).sp q = s.sp q := by
  cases hr : s.timerRuns p with
  | true => rw [State.tickPort_of_runs hr, State.setSp_sp_other _ h]
  | false => rw [State.tickPort_of_stands hr]

theorem State.tickPort_sp_same {p : SpId} :
    (s.timerRuns p = true ∧ (s.tickPort p).sp p = (s.sp p).ticked) ∨
    (s.timerRuns p = false ∧ (s.tickPort p).sp p = s.sp p) := by
  cases hr : s.timerRuns p with
  | true => exact .inl ⟨rfl, by rw [State.tickPort_of_runs hr, State.setSp_sp_same]⟩
  | false => exact .inr ⟨rfl, by rw [State.tickPort_of_stands hr]⟩

theorem State.tickPort_sameBut (s : State) (p : SpId) : s.sameBut (s.tickPort p) [spBlock p] := by
  cases hr : s.timerRuns p with
  | true =>
    rw [State.tickPort_of_runs hr]
    exact s.setSp_sameBut p _
  | false =>
    rw [State.tickPort_of_stands hr]
    exact s.sameBut_refl _

theorem State.setCtl_sameBut (s : State) (x : Control) : s.sameBut (s.setCtl x) [.ctl] := fun b hb => by
  cases b <;> first | rfl | simp at hb

theorem State.setSce_sameBut (s : State) (x : Scrub) : s.sameBut (s.setSce x) [.sce] := fun b hb => by
  cases b <;> first | rfl | simp at hb

theorem State.tickPatrol_of_wait (h : s.sce.state = .patrolWait) :
    s.tickPatrol = s.setSce
      { s.sce with
        intervalCount := s.sce.intervalCount + 1, intervalDue := s.sce.regInterval.toNat ≤ s.sce.intervalCount + 1 } := by
  simp [State.tickPatrol, h]

theorem State.tickPatrol_of_other (h : s.sce.state ≠ .patrolWait) : s.tickPatrol = s := by simp [State.tickPatrol, h]

theorem State.tickPatrol_sameBut (s : State) : s.sameBut s.tickPatrol [.sce] := by
  by_cases h : s.sce.state = .patrolWait
  · rw [State.tickPatrol_of_wait h]
    exact s.setSce_sameBut _
  · rw [State.tickPatrol_of_other h]
    exact s.sameBut_refl _

theorem State.tickPatrol_sp (s : State) (p : SpId) : s.tickPatrol.sp p = s.sp p := by
  cases p
  · exact s.tickPatrol_sameBut .sp0 (by decide)
  · exact s.tickPatrol_sameBut .sp1 (by decide)

/-- Both ports' timers after a tick, the prescale count at 0. -/
def State.tickedPorts (s : State) : State := ((s.setCtl { s.ctl with prescaleCount := 0 }).tickPort .sp0).tickPort .sp1

theorem State.tickedPorts_sameBut (s : State) : s.sameBut s.tickedPorts [.ctl, .sp0, .sp1] :=
  State.sameBut_trans (State.sameBut_mono (s.setCtl_sameBut _) (by simp))
    (State.sameBut_trans (State.sameBut_mono (State.tickPort_sameBut _ .sp0) (by simp [spBlock]))
      (State.sameBut_mono (State.tickPort_sameBut _ .sp1) (by simp [spBlock])))

theorem State.tickedPorts_ctl (s : State) : s.tickedPorts.ctl = { s.ctl with prescaleCount := 0 } :=
  (State.tickPort_sameBut _ .sp1 .ctl (by decide)).trans (State.tickPort_sameBut _ .sp0 .ctl (by decide))

/-- Each port counts the tick by its own timer. -/
theorem State.completeTick_sp (s : State) (p : SpId) :
    (s.timerRuns p = true ∧ s.completeTick.sp p = (s.sp p).ticked) ∨
    (s.timerRuns p = false ∧ s.completeTick.sp p = s.sp p) := by
  rw [State.completeTick, State.tickPatrol_sp]
  cases p with
  | sp0 =>
    rw [State.tickPort_sp_other (by decide)]
    exact State.tickPort_sp_same (s := s.setCtl { s.ctl with prescaleCount := 0 }) (p := .sp0)
  | sp1 =>
    have hsame : ((s.setCtl { s.ctl with prescaleCount := 0 }).tickPort .sp0).sp .sp1 = s.sp .sp1 :=
      State.tickPort_sp_other (by decide)
    have hport := State.tickPort_sp_same (s := (s.setCtl { s.ctl with prescaleCount := 0 }).tickPort .sp0) (p := .sp1)
    rwa [State.timerRuns_congr hsame, hsame] at hport

theorem State.lastPeriod_iff : s.lastPeriod = true ↔ s.ctl.prescaleCount + 1 = s.cfg.prescale.toNat := by
  simp [State.lastPeriod]

/-- Settles O8: the count, then each timer by its own block. -/
theorem refclkAndTick : Obligations.RefclkAndTick := by
  unfold Obligations.RefclkAndTick
  refine fun s hr => ⟨fun hlt => ?_, fun heq => ?_⟩
  · have hlast : s.eventStart.lastPeriod = false := by
      rw [← Bool.not_eq_true, State.lastPeriod_iff]
      omega
    refine congrArg _ ((State.outside_of_release hr _).trans ?_)
    simp only [State.refclk, hlast]
    rfl
  · have hlast : s.eventStart.lastPeriod = true := State.lastPeriod_iff.2 heq
    refine ⟨s.eventStart.completeTick, congrArg _ ((State.outside_of_release hr _).trans ?_),
      congrArg _ ((State.outside_of_release hr _).trans ?_), ?_, ?_, fun p => ?_, fun hwait => ?_, fun hother => ?_⟩
    · simp only [State.refclk, hlast, if_true]
    · simp only [hlast, if_true]
    · exact State.sameBut_trans (State.sameBut_mono s.eventStart.tickedPorts_sameBut (by simp))
        (State.sameBut_mono s.eventStart.tickedPorts.tickPatrol_sameBut (by simp))
    · exact (s.eventStart.tickedPorts.tickPatrol_sameBut .ctl (by decide)).trans s.eventStart.tickedPorts_ctl
    · rcases s.eventStart.completeTick_sp p with ⟨hruns, hsp⟩ | ⟨hstands, hsp⟩
      · exact .inl ⟨hsp, State.timerRuns_iff.1 hruns⟩
      · refine .inr ⟨hsp, ?_⟩
        have hnot := mt (State.timerRuns_iff (s := s.eventStart) (p := p)).2 (by rw [hstands]; decide)
        by_cases htimeout : (s.eventStart.sp p).beatTimeout = 0#8
        · exact .inl htimeout
        · cases hbeat : s.eventStart.beatOnLink p with
          | true => exact .inr (.inl rfl)
          | false =>
            refine .inr (.inr fun x hx => ⟨fun hph => ?_, fun hph => ?_⟩)
            · exact hnot ⟨htimeout, hbeat, x, hx, .inl hph⟩
            · exact hnot ⟨htimeout, hbeat, x, hx, .inr hph⟩
    · have hsce : s.eventStart.tickedPorts.sce = s.eventStart.sce := s.eventStart.tickedPorts_sameBut .sce (by decide)
      have htick := State.tickPatrol_of_wait (s := s.eventStart.tickedPorts) (by rw [hsce, hwait])
      rw [hsce] at htick
      exact congrArg State.sce htick
    · have hsce : s.eventStart.tickedPorts.sce = s.eventStart.sce := s.eventStart.tickedPorts_sameBut .sce (by decide)
      have htick := State.tickPatrol_of_other (s := s.eventStart.tickedPorts) (by rw [hsce]; exact hother)
      exact (congrArg State.sce htick).trans hsce

/-- An internal row whose event's condition holds happens, while no waiting writer comes first (R26, log 3). -/
theorem State.internal_of_ready {d : Due} (h : Ready s) (hg : d ≠ .grant) (hd : s.dueCondition d = true) :
    s.internal d = s.fire d := State.internal_of_due (State.due_of_dueCondition h.1 h.2 hg hd)

theorem State.beatExpiry_eq {p : SpId} {b : Burst} (hb : (s.sp p).burst = some b) :
    s.beatExpiry p =
      (s.logRecord
        { ErrorRecord.base .protocol (portSource p.port) b.word with
          access := some b.hdr.op.access, tag := some b.hdr.tag, cause := some .timeout }).setSp p
        (((s.sp p).ended b.hdr.tag .protocol b.done).stopped .timeout) := by
  simp only [State.beatExpiry, hb, State.endBurst_eq_ended hb, State.logRecord_setSp, State.suspend_eq_stopped,
    State.setSp_sp_same, State.setSp_setSp]

/-- Settles O9: the expiry's three parts, and the interval's request. -/
theorem timerExpiries : Obligations.TimerExpiries := by
  unfold Obligations.TimerExpiries
  refine ⟨fun s p x hready hx hphase hdue => ?_, fun s hready hstate hdue => ?_⟩
  · have hcond : s.dueCondition (.beatExpiry p) = true := by
      rcases hphase with hphase | hphase <;> simp [State.dueCondition, State.expiryReady, hx, hdue, hphase]
    have hfire : s.internal (.beatExpiry p) = s.beatExpiry p := State.internal_of_ready hready nofun hcond
    rw [State.beatExpiry_eq hx] at hfire
    exact ⟨_, congrArg Host.Outcome.next hfire, State.setSp_sp_same _ _ _, State.setSp_elog _ _ _, s.setSp_logRecord_sameBut p _ _⟩
  · have hcond : s.dueCondition .intervalExpiry = true := by
      simp [State.dueCondition, State.intervalReady, hstate, hdue]
    exact congrArg Host.Outcome.next (State.internal_of_ready hready (d := .intervalExpiry) nofun hcond)

/-! ### REQ_SUBMIT (R112 to R114) -/

theorem reqOpOfCode_eq_none_iff : ∀ c < 16, (reqOpOfCode c = none ↔ 8 ≤ c) := by decide

theorem ReqOp.code_of_reqOpOfCode {c : Nat} {op : ReqOp} (h : reqOpOfCode c = some op) : op.code = c := by
  unfold reqOpOfCode atomicOfCode at h
  split at h
  · cases h; rfl
  · cases h; rfl
  · cases h; rfl
  · split at h <;> cases h <;> rfl

theorem sizeOfCode_eq_noSize_iff : ∀ z : BitVec 2, sizeOfCode z = .noSize ↔ z = 3#2 := by decide

theorem sizeOfCode_eq_word_iff : ∀ z : BitVec 2, sizeOfCode z = .word ↔ z = 2#2 := by decide

/-- What makes the staged request invalid (R113). -/
def Ppt.invalid (x : Ppt) : Prop :=
  8 ≤ (x.reqOp.extractLsb' 0 4).toNat ∨
  ((x.reqOp.extractLsb' 0 4).toNat ≠ 7 ∧ x.reqOp.extractLsb' 4 2 = 3#2) ∨
  (2 ≤ (x.reqOp.extractLsb' 0 4).toNat ∧ (x.reqOp.extractLsb' 0 4).toNat ≤ 6 ∧ x.reqOp.extractLsb' 4 2 ≠ 2#2)

/-- The request that the staging registers spell. -/
def Ppt.spelled (x : Ppt) (op : ReqOp) : PpRequest :=
  { op := op, size := x.stagedSize, tag := x.reqOp.extractLsb' 8 4, addr := x.reqAddr, opA := x.reqOpA, opB := x.reqOpB }

theorem AtomicOp.code_bounds (a : AtomicOp) : 2 ≤ a.code ∧ a.code ≤ 6 := by cases a <;> decide

/-- The staged request is invalid, or is the one the registers spell. -/
theorem Ppt.staged_cases (x : Ppt) :
    (x.invalid ∧ x.staged = none) ∨
    (¬ x.invalid ∧ ∃ op, op.code = (x.reqOp.extractLsb' 0 4).toNat ∧ x.staged = some (x.spelled op)) := by
  have hlt : (x.reqOp.extractLsb' 0 4).toNat < 16 := (x.reqOp.extractLsb' 0 4).isLt
  unfold Ppt.staged Ppt.invalid
  cases hop : x.stagedOp with
  | none => exact .inl ⟨.inl ((reqOpOfCode_eq_none_iff _ hlt).1 hop), rfl⟩
  | some op =>
    have hcode : op.code = (x.reqOp.extractLsb' 0 4).toNat := ReqOp.code_of_reqOpOfCode hop
    have hno := sizeOfCode_eq_noSize_iff (x.reqOp.extractLsb' 4 2)
    have hword := sizeOfCode_eq_word_iff (x.reqOp.extractLsb' 4 2)
    rw [← hcode]
    cases op with
    | flush => exact .inr ⟨by simp [ReqOp.code], _, rfl, rfl⟩
    | read =>
      by_cases h3 : x.reqOp.extractLsb' 4 2 = 3#2
      · exact .inl ⟨.inr (.inl ⟨by decide, h3⟩), if_pos (hno.2 h3)⟩
      · exact .inr ⟨by simp [ReqOp.code, h3], _, rfl, if_neg (mt hno.1 h3)⟩
    | write =>
      by_cases h3 : x.reqOp.extractLsb' 4 2 = 3#2
      · exact .inl ⟨.inr (.inl ⟨by decide, h3⟩), if_pos (hno.2 h3)⟩
      · exact .inr ⟨by simp [ReqOp.code, h3], _, rfl, if_neg (mt hno.1 h3)⟩
    | atomic a =>
      have hbounds := a.code_bounds
      have hacode : (ReqOp.atomic a).code = a.code := rfl
      by_cases h2 : x.reqOp.extractLsb' 4 2 = 2#2
      · refine .inr ⟨?_, _, rfl, if_pos (hword.2 h2)⟩
        rw [h2, hacode]
        rintro (h | ⟨-, h⟩ | ⟨-, -, h⟩)
        · omega
        · cases h
        · exact h rfl
      · exact .inl ⟨.inr (.inr ⟨hbounds.1, hbounds.2, h2⟩), if_neg (mt hword.1 h2)⟩

theorem exec_reqSubmit_of_taken {b : Bus} (h : Taken s b) (v : Reg16) :
    exec (.reqSubmit b v) s = .next (s.eventStartBy b.together).submit :=
  congrArg _ (State.busWrite_of_taken h _)

/-- Settles O11: the staged request's validity, then the room in the PRQ. -/
theorem reqSubmit : Obligations.ReqSubmit := by
  unfold Obligations.ReqSubmit
  intro s b v htaken u code size invalid
  rw [exec_reqSubmit_of_taken htaken]
  rcases u.ppt.staged_cases with ⟨hinvalid, hstaged⟩ | ⟨hvalid, op, hop, hstaged⟩
  · refine ⟨fun _ => ?_, fun h => absurd hinvalid h, fun h => absurd hinvalid h⟩
    simp only [State.submit, u] at hstaged ⊢
    rw [hstaged]
    rfl
  · refine ⟨fun h => absurd h hvalid, fun _ hfull => ?_, fun _ hroom => ⟨u.ppt.spelled op, ?_, hop, rfl, rfl, rfl, rfl, rfl⟩⟩
    · have hnot : ¬ u.ppt.prq.length < 4 := by omega
      simp only [State.submit, u] at hstaged hnot ⊢
      simp only [hstaged, hnot, if_false]
      rfl
    · simp only [State.submit, u] at hstaged hroom ⊢
      simp only [hstaged, hroom, if_true]
      rfl

end Sys2Proof.Machine
end

section
/-! The configuration writes, the interrupt sources, untaken accesses and the commands of the controller and of the stream
ports (chapters 06, 07, 09 and 10). -/

namespace Sys2Proof.Machine

variable {s t : State} {b : Bus}

/-! ### Configuration writes (R33, R94, R108, R111) -/

theorem prescaleLegal_iff {v : Reg16} :
    (decide (1#16 ≤ v) && decide (v ≤ 1023#16)) = true ↔ 1 ≤ v.toNat ∧ v.toNat ≤ 1023 := by
  simp [BitVec.le_def]

theorem watermarksLegal_iff {l h : BitVec 4} :
    (decide (1#4 ≤ l) && decide (l ≤ h) && decide (h ≤ 8#4)) = true ↔ 1 ≤ l.toNat ∧ l.toNat ≤ h.toNat ∧ h.toNat ≤ 8 := by
  simp [BitVec.le_def, and_assoc]

/-- A configuration write by its two conditions: HALTED, and legal (R108). -/
theorem State.cfgWrite_cases {legal : Bool} {ok : Prop} (hok : legal = true ↔ ok) (f : State → State) :
    (s.ctl.state = .halted ∧ ok → s.cfgWrite legal f = f s) ∧
    (¬ (s.ctl.state = .halted ∧ ok) → s.cfgWrite legal f = s.setCtl { s.ctl with configRefused := true }) :=
  ⟨fun h => State.cfgWrite_of_halted h.1 (hok.2 h.2) f, fun h => State.cfgWrite_of_refused (fun hc => h ⟨hc.1, hok.1 hc.2⟩) f⟩

/-- Settles O13, write by write. -/
theorem cfgOtherWrites : Obligations.CfgOtherWrites := by
  unfold Obligations.CfgOtherWrites
  intro s b v htaken u refused lwm hwm prescaleOk watermarksOk
  have hprescale : exec (.cfgPrescaleWrite b v) s = .next (u.writePrescale v) :=
    congrArg Host.Outcome.next (State.busWrite_of_taken htaken _)
  have hwatermarks : exec (.cfgWatermarksWrite b v) s = .next (u.writeWatermarks v) :=
    congrArg Host.Outcome.next (State.busWrite_of_taken htaken _)
  have hprotect : exec (.cfgProtectWrite b v) s = .next (u.writeProtect v) :=
    congrArg Host.Outcome.next (State.busWrite_of_taken htaken _)
  rw [hprescale, hwatermarks, hprotect]
  obtain ⟨hp1, hp2⟩ := State.cfgWrite_cases (s := u) (prescaleLegal_iff (v := v))
    fun t => (t.setCfg { t.cfg with prescale := v }).setCtl { t.ctl with prescaleCount := 0 }
  obtain ⟨hw1, hw2⟩ := State.cfgWrite_cases (s := u) (watermarksLegal_iff (l := lwm) (h := hwm))
    fun t => t.setCfg { t.cfg with lwm := lwm, hwm := hwm }
  exact ⟨fun h => congrArg Host.Outcome.next (hp1 h), fun h => congrArg Host.Outcome.next (hp2 h),
    fun h => congrArg Host.Outcome.next (hw1 h), fun h => congrArg Host.Outcome.next (hw2 h),
    fun h => congrArg Host.Outcome.next (State.cfgWrite_of_halted h rfl _),
    fun h => congrArg Host.Outcome.next (State.cfgWrite_of_refused (fun hc => h hc.1) _)⟩

/-! ### Interrupt sources (R184 to R186) -/

/-- The sources in their places, from bit 0 (Table 10-7). -/
def State.irqSourceBits (s : State) : List Bool :=
  [!s.ppt.cq.isEmpty, !s.elog.records.isEmpty, s.elog.overflow, s.sp0.state == .suspended, s.sp1.state == .suspended,
   s.mb.anyEntry fun e => e.state == .faulted, false, false, s.irq.mbBlocked, s.irq.scrubPass, s.irq.fillDone,
   s.irq.haltDone]

theorem State.irqPending_eq_packBits (s : State) : s.irqPending = BitVec.ofNat 16 (packBits s.irqSourceBits) := by
  refine congrArg (BitVec.ofNat 16) ?_
  simp only [State.irqSourceBits, packBits, Bool.toNat_false]
  omega

theorem State.getLsbD_irqPending {i : Nat} (hi : i < 16) : s.irqPending.getLsbD i = s.irqSourceBits.getD i false := by
  rw [State.irqPending_eq_packBits, BitVec.getLsbD_ofNat, decide_eq_true hi, Bool.true_and, testBit_packBits]

/-- A value of bits differs from 0 at some bit. -/
theorem ne_zero_iff_getLsbD {w : Nat} {x : BitVec w} : x ≠ 0#w ↔ ∃ k, x.getLsbD k = true := by
  constructor
  · intro h
    by_contra hall
    refine h (BitVec.eq_of_getLsbD_eq fun i _ => ?_)
    rw [not_exists] at hall
    simpa using hall i
  · rintro ⟨k, hk⟩ rfl
    simp at hk

theorem MergeBuffer.anyEntry_eq_true {mb : MergeBuffer} {test : Entry → Bool} :
    mb.anyEntry test = true ↔ ∃ e, test (mb.entry e) = true := by
  simp only [MergeBuffer.anyEntry, List.any_eq_true]
  exact ⟨fun ⟨e, _, h⟩ => ⟨e, h⟩, fun ⟨e, h⟩ => ⟨e, mem_entryIds e, h⟩⟩

/-- Settles O14: the write, each source's bit, and the pin. -/
theorem interruptSources : Obligations.InterruptSources := by
  unfold Obligations.InterruptSources
  refine ⟨fun s b v htaken => congrArg Host.Outcome.next (State.busWrite_of_taken htaken _), fun s => ?_⟩
  have hfaulted : (s.mb.anyEntry fun e => e.state == .faulted) = true ↔ ∃ e, (s.mb.entry e).state = .faulted := by
    simp [MergeBuffer.anyEntry_eq_true]
  have hbit : ∀ i < 16, s.irqPending.getLsbD i = s.irqSourceBits.getD i false := fun i => State.getLsbD_irqPending
  refine ⟨?_, ?_, ?_, ?_, ?_, ?_, ?_, ?_, ?_, ?_, ?_, ?_, ?_⟩
  · rw [hbit 0 (by decide)]
    simp [State.irqSourceBits]
  · rw [hbit 1 (by decide)]
    simp [State.irqSourceBits]
  · rw [hbit 2 (by decide)]
    simp [State.irqSourceBits]
  · rw [hbit 3 (by decide)]
    simp [State.irqSourceBits]
  · rw [hbit 4 (by decide)]
    simp [State.irqSourceBits]
  · rw [hbit 5 (by decide)]
    simp [State.irqSourceBits, hfaulted]
  · rw [hbit 8 (by decide)]
    simp [State.irqSourceBits]
  · rw [hbit 9 (by decide)]
    simp [State.irqSourceBits]
  · rw [hbit 10 (by decide)]
    simp [State.irqSourceBits]
  · rw [hbit 11 (by decide)]
    simp [State.irqSourceBits]
  · refine BitVec.eq_of_getLsbD_eq fun i hi => ?_
    rw [BitVec.getLsbD_extractLsb', State.getLsbD_irqPending (by omega)]
    interval_cases i <;> simp [State.irqSourceBits]
  · refine BitVec.eq_of_getLsbD_eq fun i hi => ?_
    rw [BitVec.getLsbD_extractLsb', State.getLsbD_irqPending (by omega)]
    interval_cases i <;> simp [State.irqSourceBits]
  · have hpin : s.intPin = true ↔ s.resetAsserted = false ∧ (s.irqPending &&& s.irq.enable) ≠ 0#16 := by
      simp [State.intPin]
    rw [hpin, ne_zero_iff_getLsbD]
    simp [BitVec.getLsbD_and]

/-! ### Accesses that are not taken (R188, R199) -/

theorem busTaken_eq_false
    (h : b.chipSelect = false ∨ b.otherStrobe = true ∨ b.crossed = true ∨ b.sinceRelease = false) : busTaken b = false := by
  rcases h with h | h | h | h <;> simp [busTaken, busAccess, h]

/-- Settles O16: no row's access is taken. -/
theorem untakenAccessChangesNothing : Obligations.UntakenAccessChangesNothing := by
  unfold Obligations.UntakenAccessChangesNothing
  intro s b hr hb
  have hwrite : ∀ f, Host.Outcome.next (s.busWrite b f) = (.next s : Host.Outcome State Fault Refusal) :=
    fun f => congrArg Host.Outcome.next (State.busWrite_untaken (busTaken_eq_false hb) f)
  have hread : ∀ f, Host.Outcome.next (s.busRead b f) = (.next s : Host.Outcome State Fault Refusal) := fun f => by
    simp [State.busRead, hr, busTaken_eq_false hb]
  refine ⟨fun v => ⟨hwrite _, hwrite _, hwrite _, hwrite _, hwrite _, hwrite _, fun off => hwrite _⟩, hread _, hread _,
    fun arg => ⟨hwrite _, hwrite _, hwrite _, hwrite _, hwrite _, hwrite _, hwrite _, hwrite _, hwrite _, hwrite _,
      hwrite _, hwrite _, hwrite _, hwrite _, hwrite _, hwrite _, hwrite _, hwrite _, fun code => hwrite _⟩⟩

/-! ### RUN and HALT (R103 to R105, R171) -/

/-- The scrub engine after a HALT, by its state. -/
def Scrub.halted (x : Scrub) (st : ScrubState) : Scrub :=
  match st with
  | .idle => x
  | .patrolWait => { x with state := .idle, intervalDue := false }
  | .patrolRequest => { x with state := .idle }
  | .fillRequest => { x with state := .idle, fillResult := .stopped }
  | .patrolAccess | .fillAccess => { x with stopPending := true }

/-- The arbiter after a HALT, by the scrub engine's state. -/
def Arbiter.halted (a : Arbiter) (st : ScrubState) : Arbiter :=
  match st with
  | .patrolRequest | .fillRequest => a.scrubWithdrawn
  | .idle | .patrolWait | .patrolAccess | .fillAccess => a

theorem State.scrubHalt_eq (s : State) :
    s.scrubHalt = (s.setSce (s.sce.halted s.sce.state)).setArb (s.arb.halted s.sce.state) := by
  unfold State.scrubHalt
  generalize s.sce.state = st
  cases st <;> rfl

theorem State.setArb_sameBut (s : State) (x : Arbiter) : s.sameBut (s.setArb x) [.arb] := fun b hb => by
  cases b <;> first | rfl | simp at hb

theorem State.setIrq_sameBut (s : State) (x : Irq) : s.sameBut (s.setIrq x) [.irq] := fun b hb => by
  cases b <;> first | rfl | simp at hb

theorem State.answered_sameBut (s : State) (r : CmdResult) (code : BitVec 8) : s.sameBut (s.answered r code) [.ctl] :=
  s.setCtl_sameBut _

/-- Two changes, each of some of the blocks listed. -/
theorem State.sameBut.then {s t u : State} {as bs cs : List Block} (h : s.sameBut t as) (k : t.sameBut u bs)
    (ha : ∀ b ∈ as, b ∈ cs) (hb : ∀ b ∈ bs, b ∈ cs) : s.sameBut u cs :=
  State.sameBut_trans (State.sameBut_mono h ha) (State.sameBut_mono k hb)

/-- A RUNNING controller's HALT, before the quiesce conditions are looked at (R104, R171). -/
def State.halting (s : State) : State :=
  ((s.setCtl { s.ctl with state := .quiescing }).setSce (s.sce.halted s.sce.state)).setArb (s.arb.halted s.sce.state)

theorem State.halting_ctl (s : State) : s.halting.ctl = { s.ctl with state := .quiescing } := by rfl
theorem State.halting_irq (s : State) : s.halting.irq = s.irq := by rfl
theorem State.halting_sce (s : State) : s.halting.sce = s.sce.halted s.sce.state := by rfl
theorem State.halting_arb (s : State) : s.halting.arb = s.arb.halted s.sce.state := by rfl

theorem State.halting_sameBut (s : State) : s.sameBut s.halting [.ctl, .sce, .arb] :=
  ((s.setCtl_sameBut _).then (State.setSce_sameBut _ _) (cs := [.ctl, .sce]) (by simp) (by simp)).then
    (State.setArb_sameBut _ _) (by simp) (by simp)

theorem State.quiesceComplete_sameBut (s : State) : s.sameBut s.quiesceComplete [.ctl, .irq] :=
  (s.setCtl_sameBut _).then (State.setIrq_sameBut _ _) (by simp) (by simp)

/-- The quiesce conditions of the halting controller are the ones after the engine's stop. -/
theorem State.halting_quiesced (s : State) :
    s.halting.quiesced = true ↔ QuiesceHolds { s with sce := s.sce.halted s.sce.state } :=
  State.quiesced_iff

/-- The engine's stop by its state (R171). -/
theorem State.halted_engine {s t : State} (hsce : t.sce = s.sce.halted s.sce.state)
    (harb : t.arb = s.arb.halted s.sce.state) :
    match s.sce.state with
    | .idle => t.sce = s.sce ∧ t.arb = s.arb
    | .patrolWait => t.sce = { s.sce with state := .idle, intervalDue := false } ∧ t.arb = s.arb
    | .patrolRequest => t.sce = { s.sce with state := .idle } ∧ t.arb = s.arb.scrubWithdrawn
    | .fillRequest => t.sce = { s.sce with state := .idle, fillResult := .stopped } ∧ t.arb = s.arb.scrubWithdrawn
    | .patrolAccess | .fillAccess => t.sce = { s.sce with stopPending := true } ∧ t.arb = s.arb := by
  generalize s.sce.state = st at hsce harb
  cases st <;> exact ⟨hsce, harb⟩

/-- A HALT of a RUNNING controller, before its own answer (R104). -/
theorem State.cmdHalt_of_running (h : s.ctl.state = .running) :
    s.cmdHalt = (.done, if s.halting.quiesced then s.halting.quiesceComplete else s.halting) := by
  have hscrub : (s.setCtl { s.ctl with state := .quiescing }).scrubHalt = s.halting := State.scrubHalt_eq _
  simp only [State.cmdHalt, h, if_true, hscrub]

theorem State.cmdHalt_of_other (h : s.ctl.state ≠ .running) : s.cmdHalt = (.refusedState, s) := by
  simp [State.cmdHalt, h]

theorem State.answered_ctl (s : State) (r : CmdResult) (code : BitVec 8) :
    (s.answered r code).ctl = { s.ctl with cmdResult := r, cmdCode := code } := by rfl

/-- Settles O17: RUN by the controller's state; HALT by the engine's stop, then the quiesce conditions. -/
theorem runAndHalt : Obligations.RunAndHalt := by
  unfold Obligations.RunAndHalt
  refine ⟨fun s b arg htaken => ⟨fun hs => ?_, fun hs => ?_⟩, fun s b arg htaken => ⟨fun hs => ?_, fun hs => ?_⟩⟩
  · exact congrArg Host.Outcome.next (State.busWrite_command_of_taken htaken (if_pos hs) 0x01#8)
  · exact congrArg Host.Outcome.next (State.busWrite_command_of_taken htaken (if_neg hs) 0x01#8)
  · exact congrArg Host.Outcome.next (State.busWrite_command_of_taken htaken (State.cmdHalt_of_other hs) 0x02#8)
  · have hexec := State.busWrite_command_of_taken htaken (State.cmdHalt_of_running hs) 0x02#8
    generalize s.eventStartBy b.together = u at hs hexec ⊢
    have hcond := u.halting_quiesced
    have hsame := u.halting_sameBut
    have hctl := u.halting_ctl
    have hirq := u.halting_irq
    have hsce := u.halting_sce
    have harb := u.halting_arb
    generalize u.halting = v at hexec hcond hsame hctl hirq hsce harb
    by_cases hq : v.quiesced = true
    · rw [if_pos hq] at hexec
      refine ⟨(v.quiesceComplete).answered .done 0x02#8, congrArg Host.Outcome.next hexec, ?_, ?_, State.halted_engine hsce harb,
        fun _ => ⟨rfl, ?_⟩, fun h => absurd (hcond.1 hq) fun hh => h ?_⟩
      · exact (hsame.then v.quiesceComplete_sameBut (cs := [.ctl, .sce, .arb, .irq]) (by simp) (by simp)).then
          (State.answered_sameBut _ _ _) (by simp) (by simp)
      · show { v.ctl with state := .halted, cmdResult := .done, cmdCode := 0x02#8 } = _
        rw [hctl]
        rfl
      · show { v.irq with haltDone := true } = _
        rw [hirq]
      · exact hsce ▸ hh
    · rw [if_neg hq] at hexec
      refine ⟨v.answered .done 0x02#8, congrArg Host.Outcome.next hexec, ?_, ?_, State.halted_engine hsce harb,
        fun h => absurd (hcond.2 ?_) hq, fun _ => ⟨congrArg Control.state hctl, hirq⟩⟩
      · exact hsame.then (State.answered_sameBut _ _ _) (by simp) (by simp)
      · rw [State.answered_ctl, hctl]
      · exact hsce ▸ h

/-! ### PORT_ENABLE, PORT_RESUME and PORT_DISABLE (R131, R132, R134) -/

section
variable {p : SpId} {arg : BitVec 8}

theorem State.cmdPortEnable_of_disabled (ha : portOfArg arg = some p) (h : (s.sp p).state = .disabled) :
    s.cmdPortEnable arg =
      (.done, s.setSp p { s.sp p with state := .enabled, credits := 4, outbound := (s.sp p).outbound ++ [.credit 4] }) := by
  simp [State.cmdPortEnable, ha, h, State.send]

theorem State.cmdPortEnable_of_other (ha : portOfArg arg = some p) (h : (s.sp p).state ≠ .disabled) :
    s.cmdPortEnable arg = (.refusedState, s) := by simp [State.cmdPortEnable, ha, h]

theorem State.cmdPortResume_of_suspended (ha : portOfArg arg = some p) (h : (s.sp p).state = .suspended) :
    s.cmdPortResume arg = (.done, s.setSp p { s.sp p with state := .enabled }) := by
  simp [State.cmdPortResume, ha, h]

theorem State.cmdPortResume_of_other (ha : portOfArg arg = some p) (h : (s.sp p).state ≠ .suspended) :
    s.cmdPortResume arg = (.refusedState, s) := by simp [State.cmdPortResume, ha, h]

theorem State.cmdPortDisable_of_credited (ha : portOfArg arg = some p) (h : (s.sp p).state.credited = true) :
    s.cmdPortDisable arg = (.done, s.portDisable p) := by simp [State.cmdPortDisable, ha, h]

theorem State.cmdPortDisable_of_other (ha : portOfArg arg = some p) (h : (s.sp p).state.credited = false) :
    s.cmdPortDisable arg = (.refusedState, s) := by simp [State.cmdPortDisable, ha, h]

theorem State.portDisable_of_burst {x : Burst} (h : (s.sp p).burst = some x) :
    s.portDisable p =
      s.setSp p
        { s.sp p with
          state := .disabling
          srq := (s.sp p).srq.take 1
          credits := 0
          outbound := (s.sp p).outbound ++ ((s.sp p).srq.drop 1).map (fun h => .endMsg h.tag .aborted 0) ++ [.close] } := by
  simp [State.portDisable, h, abortedEnds]

theorem State.portDisable_of_none (h : (s.sp p).burst = none) :
    s.portDisable p =
      s.setSp p
        { s.sp p with
          state := .disabled
          srq := []
          credits := 0
          outbound := (s.sp p).outbound ++ (s.sp p).srq.map (fun h => .endMsg h.tag .aborted 0) ++ [.close] } := by
  simp [State.portDisable, h, abortedEnds]

end

/-- Settles O18, command by command and state by state. -/
theorem portEnableAndResume : Obligations.PortEnableAndResume := by
  unfold Obligations.PortEnableAndResume
  refine fun s b arg htaken => ⟨fun harg => ⟨?_, ?_⟩, fun p hp => ?_⟩
  · have hcmd : ∀ u : State, u.cmdPortEnable arg = (.refusedArgument, u) := fun u => by
      simp [State.cmdPortEnable, portOfArg_of_above harg]
    exact congrArg Host.Outcome.next (State.busWrite_command_of_taken htaken (hcmd _) 0x08#8)
  · have hcmd : ∀ u : State, u.cmdPortResume arg = (.refusedArgument, u) := fun u => by
      simp [State.cmdPortResume, portOfArg_of_above harg]
    exact congrArg Host.Outcome.next (State.busWrite_command_of_taken htaken (hcmd _) 0x0B#8)
  · have ha := portOfArg_of_names hp
    exact ⟨fun h => congrArg Host.Outcome.next
        (State.busWrite_command_of_taken htaken (State.cmdPortEnable_of_disabled ha h) 0x08#8),
      fun h => congrArg Host.Outcome.next
        (State.busWrite_command_of_taken htaken (State.cmdPortEnable_of_other ha h) 0x08#8),
      fun h => congrArg Host.Outcome.next
        (State.busWrite_command_of_taken htaken (State.cmdPortResume_of_suspended ha h) 0x0B#8),
      fun h => congrArg Host.Outcome.next
        (State.busWrite_command_of_taken htaken (State.cmdPortResume_of_other ha h) 0x0B#8)⟩

/-- Settles O19: by the port's state, then its burst. -/
theorem portDisable : Obligations.PortDisable := by
  unfold Obligations.PortDisable
  refine fun s b arg htaken => ⟨fun harg => ?_, fun p hp => ⟨fun hs => ?_, fun hs => ⟨fun hb => ?_, fun x hx => ?_⟩⟩⟩
  · have hcmd : ∀ u : State, u.cmdPortDisable arg = (.refusedArgument, u) := fun u => by
      simp [State.cmdPortDisable, portOfArg_of_above harg]
    exact congrArg Host.Outcome.next (State.busWrite_command_of_taken htaken (hcmd _) 0x09#8)
  · have ha := portOfArg_of_names hp
    exact congrArg Host.Outcome.next (State.busWrite_command_of_taken htaken
      (State.cmdPortDisable_of_other ha (PortState.not_credited_iff.2 hs)) 0x09#8)
  · have hcmd := State.cmdPortDisable_of_credited (portOfArg_of_names hp) (PortState.credited_iff.2 hs)
    rw [State.portDisable_of_none hb] at hcmd
    exact congrArg Host.Outcome.next (State.busWrite_command_of_taken htaken hcmd 0x09#8)
  · have hcmd := State.cmdPortDisable_of_credited (portOfArg_of_names hp) (PortState.credited_iff.2 hs)
    rw [State.portDisable_of_burst hx] at hcmd
    exact congrArg Host.Outcome.next (State.busWrite_command_of_taken htaken hcmd 0x09#8)

end Sys2Proof.Machine
end

section
/-! The direct commands for regions and entries, the scrub engine's start and stop, and the COMMAND write by its code
(chapters 02, 05, 08 and 10). -/

namespace Sys2Proof.Machine

variable {s t : State} {b : Bus}

/-! ### Arguments -/

theorem regionOfArg_of_above {arg : BitVec 8} (h : 16#8 ≤ arg) : regionOfArg arg = none := by
  have h16 : 16 ≤ arg.toNat := h
  simp [regionOfArg, h16]

theorem regionOfArg_of_names {arg : BitVec 8} {n : Fin 16} (h : arg.toNat = n) : regionOfArg arg = some n := by
  simp [regionOfArg, h]

theorem entryOfArg_of_above {arg : BitVec 8} (h : 8#8 ≤ arg) : entryOfArg arg = none := by
  have h8 : 8 ≤ arg.toNat := h
  simp [entryOfArg, h8]

theorem entryOfArg_of_names {arg : BitVec 8} {e : Fin 8} (h : arg.toNat = e) : entryOfArg arg = some e := by
  simp [entryOfArg, h]

/-! ### LOAD_REGION and VIEW_REGION (R96, R98) -/

/-- The descriptor a LOAD_REGION puts in the table. -/
def Acu.stagedRegion (x : Acu) : Region := .ofStaged x.rgnFirst x.rgnLast x.rgnRights

section
variable {arg : BitVec 8} {n : Fin 16}

theorem State.cmdLoadRegion_of_above (h : 16#8 ≤ arg) : s.cmdLoadRegion arg = (.refusedArgument, s) := by
  simp [State.cmdLoadRegion, regionOfArg_of_above h]

theorem State.cmdLoadRegion_of_reversed (hn : arg.toNat = n) (h : s.acu.rgnLast.toNat < s.acu.rgnFirst.toNat) :
    s.cmdLoadRegion arg = (.refusedArgument, s) := by
  simp only [State.cmdLoadRegion, regionOfArg_of_names hn]
  exact if_pos h

theorem State.cmdLoadRegion_of_range (hn : arg.toNat = n) (h : s.acu.rgnFirst.toNat ≤ s.acu.rgnLast.toNat) :
    s.cmdLoadRegion arg = (.done, s.setAcu { s.acu with regions := s.acu.regions.set n s.acu.stagedRegion }) := by
  simp only [State.cmdLoadRegion, regionOfArg_of_names hn]
  exact if_neg (Nat.not_lt.2 h)

theorem State.cmdViewRegion_of_above (h : 16#8 ≤ arg) : s.cmdViewRegion arg = (.refusedArgument, s) := by
  simp [State.cmdViewRegion, regionOfArg_of_above h]

theorem State.cmdViewRegion_of_names (hn : arg.toNat = n) :
    s.cmdViewRegion arg =
      (.done, s.setAcu
        { s.acu with
          viewFirst := s.acu.regions[n].first, viewLast := s.acu.regions[n].last
          viewRights := s.acu.regions[n].rightsBits }) := by
  simp only [State.cmdViewRegion, regionOfArg_of_names hn]

end

/-- One port's three bits. -/
theorem PortRights.ofBits_eq (b : BitVec 3) :
    PortRights.ofBits b = { r := b.getLsbD 0, w := b.getLsbD 1, a := b.getLsbD 2 } := rfl

/-- The bits of RGNV_RIGHTS, bit 0 first (Table 10-5). -/
def Region.rightsList (d : Region) : List Bool :=
  [d.pp.r, d.pp.w, d.pp.a, false, d.sp0.r, d.sp0.w, d.sp0.a, false, d.sp1.r, d.sp1.w, d.sp1.a, false, false, false,
   false, d.enabled]

theorem Region.rightsBits_eq (d : Region) : d.rightsBits = BitVec.ofNat 16 (packBits d.rightsList) := by
  refine congrArg (BitVec.ofNat 16) ?_
  simp only [PortRights.code, Region.rightsList, packBits, Bool.toNat_false]
  omega

theorem Region.getLsbD_rightsBits (d : Region) {i : Nat} (hi : i < 16) :
    d.rightsBits.getLsbD i = d.rightsList.getD i false := by
  rw [Region.rightsBits_eq, BitVec.getLsbD_ofNat, testBit_packBits]
  simp [hi]

/-- What the view registers show is the descriptor (R98). -/
theorem Region.ofStaged_rightsBits (d : Region) : Region.ofStaged d.first d.last d.rightsBits = d := by
  have h : ∀ i (hi : i < 16), d.rightsBits[i] = d.rightsList.getD i false := fun i hi =>
    (BitVec.getLsbD_eq_getElem hi).symm.trans (d.getLsbD_rightsBits hi)
  simp [Region.ofStaged, PortRights.ofBits, h, Region.rightsList]

theorem Region.rightsBits_stored (d : Region) : d.rightsBits &&& ~~~0x8777#16 = 0#16 := by
  refine BitVec.eq_of_getLsbD_eq fun i hi => ?_
  rw [BitVec.getLsbD_and, d.getLsbD_rightsBits hi]
  interval_cases i <;> simp [Region.rightsList]

/-- Settles O21: the argument, then the range, then the descriptor's place in the table. -/
theorem regionCommands : Obligations.RegionCommands := by
  unfold Obligations.RegionCommands
  refine fun s b arg htaken => ⟨fun habove => ⟨?_, ?_⟩, fun n hn => ⟨fun hrev => ?_, fun hrange => ?_, ?_⟩⟩
  · exact congrArg Host.Outcome.next (State.busWrite_command_of_taken htaken (State.cmdLoadRegion_of_above habove) 0x10#8)
  · exact congrArg Host.Outcome.next (State.busWrite_command_of_taken htaken (State.cmdViewRegion_of_above habove) 0x11#8)
  · exact congrArg Host.Outcome.next
      (State.busWrite_command_of_taken htaken (State.cmdLoadRegion_of_reversed hn hrev) 0x10#8)
  · have hexec := State.busWrite_command_of_taken htaken (State.cmdLoadRegion_of_range hn hrange) 0x10#8
    generalize s.eventStartBy b.together = u at hrange hexec ⊢
    refine ⟨_, congrArg Host.Outcome.next hexec, ?_, rfl, fun m hm => ?_, ?_⟩
    · exact fun bl hbl => by cases bl <;> first | rfl | simp at hbl
    · have hne : (n : Nat) ≠ m := fun h => hm (Fin.ext h.symm)
      exact Vector.getElem_set_ne n.isLt m.isLt hne
    · have hset : (u.acu.regions.set n u.acu.stagedRegion)[n] = u.acu.stagedRegion := Vector.getElem_set_self n.isLt
      simp only [State.setAcu_acu, hset]
      simp [Acu.stagedRegion, Region.ofStaged, PortRights.ofBits]
  · exact ⟨_, congrArg Host.Outcome.next (State.busWrite_command_of_taken htaken (State.cmdViewRegion_of_names hn) 0x11#8),
      Region.ofStaged_rightsBits _, Region.rightsBits_stored _⟩

/-! ### VIEW_ENTRY (R50) -/

theorem getLsbD_laneBits : ∀ (m : LaneMask) (k : Fin 32), (laneBits m).getLsbD k = m.getLsbD (k / 8) := by
  decide +kernel

section
variable {arg : BitVec 8} {e : Fin 8}

theorem State.cmdViewEntry_of_above (h : 8#8 ≤ arg) : s.cmdViewEntry arg = (.refusedArgument, s) := by
  simp [State.cmdViewEntry, entryOfArg_of_above h]

theorem State.cmdViewEntry_of_names (he : arg.toNat = e) :
    s.cmdViewEntry arg = (.done, s.setMb { s.mb with view := s.mb.snapshot e }) := by
  simp only [State.cmdViewEntry, entryOfArg_of_names he]

end

theorem EntryState.code_lt (x : EntryState) : x.code < 16 := by cases x <;> decide

theorem toNat_eq_one_iff (b : Bool) : b.toNat = 1 ↔ b = true := by cases b <;> simp

/-- A field of a register spelled as a number. -/
theorem extractLsb'_ofNat_sixteen (n lo len : Nat) :
    (BitVec.ofNat 16 n).extractLsb' lo len = BitVec.ofNat len (n % 65536 / 2 ^ lo) := by
  refine BitVec.eq_of_toNat_eq ?_
  simp [Nat.shiftRight_eq_div_pow]

/-- A bit of a register spelled as a number. -/
theorem getLsbD_ofNat_sixteen (n : Nat) {i : Nat} (hi : i < 16) (b : Bool) (h : n / 2 ^ i % 2 = b.toNat) :
    (BitVec.ofNat 16 n).getLsbD i = b := by
  rw [BitVec.getLsbD_ofNat, Nat.testBit_eq_decide_div_mod_eq, h]
  cases b <;> simp [hi]

/-- The fields of MBV_STATE (Table 10-5). -/
theorem MergeBuffer.stateBits_fields {mb : MergeBuffer} {e : Fin 8} (hage : mb.agePosition e < 8) :
    let x := mb.entry e
    let v := mb.stateBits e
    v.extractLsb' 0 4 = BitVec.ofNat 4 x.state.code ∧ v.extractLsb' 4 4 = x.mask ∧
    v.extractLsb' 8 3 = BitVec.ofNat 3 (mb.agePosition e) ∧ v.getLsbD 11 = x.selected ∧ v.getLsbD 12 = x.forced ∧
    v.getLsbD 13 = x.flushBound ∧ v.getLsbD 14 = x.reopened ∧ v.getLsbD 15 = x.resolvePending := by
  intro x v
  have hcode := x.state.code_lt
  have hmask := x.mask.isLt
  have h11 := Bool.toNat_le x.selected
  have h12 := Bool.toNat_le x.forced
  have h13 := Bool.toNat_le x.flushBound
  have h14 := Bool.toNat_le x.reopened
  have h15 := Bool.toNat_le x.resolvePending
  have hv : v = BitVec.ofNat 16
      (x.state.code + 16 * x.mask.toNat + 256 * mb.agePosition e + 2048 * x.selected.toNat + 4096 * x.forced.toNat +
       8192 * x.flushBound.toNat + 16384 * x.reopened.toNat + 32768 * x.resolvePending.toNat) := rfl
  rw [hv]
  refine ⟨?_, ?_, ?_, getLsbD_ofNat_sixteen _ (by decide) _ ?_, getLsbD_ofNat_sixteen _ (by decide) _ ?_,
    getLsbD_ofNat_sixteen _ (by decide) _ ?_, getLsbD_ofNat_sixteen _ (by decide) _ ?_,
    getLsbD_ofNat_sixteen _ (by decide) _ ?_⟩
  · rw [extractLsb'_ofNat_sixteen]
    refine BitVec.eq_of_toNat_eq ?_
    simp only [BitVec.toNat_ofNat]
    omega
  · rw [extractLsb'_ofNat_sixteen]
    refine BitVec.eq_of_toNat_eq ?_
    simp only [BitVec.toNat_ofNat]
    omega
  · rw [extractLsb'_ofNat_sixteen]
    refine BitVec.eq_of_toNat_eq ?_
    simp only [BitVec.toNat_ofNat]
    omega
  all_goals omega

/-- A FREE entry's address is not shown. -/
theorem State.snapshot_addr (s : State) (e : Fin 8) :
    (s.mb.snapshot e).addr = if (s.mb.entry e).state = .free then 0#20 else (s.mb.entry e).addr := by
  by_cases h : (s.mb.entry e).state = .free <;> simp [MergeBuffer.snapshot, Entry.active, h]

/-- Settles O22: the snapshot, field by field. -/
theorem viewEntry : Obligations.ViewEntry := by
  unfold Obligations.ViewEntry
  refine fun s b arg htaken => ⟨fun habove => ?_, fun e he => ?_⟩
  · exact congrArg Host.Outcome.next (State.busWrite_command_of_taken htaken (State.cmdViewEntry_of_above habove) 0x18#8)
  · refine ⟨_, congrArg Host.Outcome.next (State.busWrite_command_of_taken htaken (State.cmdViewEntry_of_names he) 0x18#8),
      ?_, fun k hk => ?_, fun hage => MergeBuffer.stateBits_fields hage⟩
    · exact State.snapshot_addr _ e
    · simp only [MergeBuffer.snapshot, BitVec.getLsbD_and]
      rw [getLsbD_laneBits _ ⟨k, hk⟩, Bool.and_comm]

/-! ### SCRUB_START and SCRUB_STOP (R159, R164) -/

theorem State.cmdScrubStart_of_not_ready (h : ¬ (s.ctl.state = .running ∧ s.sce.state = .idle)) :
    s.cmdScrubStart = (.refusedState, s) := if_neg h

theorem State.cmdScrubStart_of_ready (h : s.ctl.state = .running ∧ s.sce.state = .idle) :
    s.cmdScrubStart =
      if s.sce.regInterval = 0#16 then (.refusedArgument, s)
      else (.done, s.setSce { s.sce with state := .patrolWait, intervalCount := 0, lastMode := .patrol }) :=
  if_pos h

/-- Settles O24: SCRUB_START by its two tests, SCRUB_STOP by the engine's state. -/
theorem scrubCommands : Obligations.ScrubCommands := by
  unfold Obligations.ScrubCommands
  refine ⟨fun s b arg htaken => ⟨fun hnot => ?_, fun hready hzero => ?_, fun hready hne => ?_⟩, fun s b arg htaken => ?_⟩
  · exact congrArg Host.Outcome.next
      (State.busWrite_command_of_taken htaken (State.cmdScrubStart_of_not_ready hnot) 0x20#8)
  · exact congrArg Host.Outcome.next
      (State.busWrite_command_of_taken htaken ((State.cmdScrubStart_of_ready hready).trans (if_pos hzero)) 0x20#8)
  · exact congrArg Host.Outcome.next
      (State.busWrite_command_of_taken htaken ((State.cmdScrubStart_of_ready hready).trans (if_neg hne)) 0x20#8)
  · intro u
    have hexec : ∀ r t, u.cmdScrubStop = (r, t) → exec (.scrubStop b arg) s = .next (t.answered r 0x21#8) :=
      fun r t h => congrArg Host.Outcome.next (State.busWrite_command_of_taken htaken h 0x21#8)
    clear_value u
    split
    all_goals
      rename_i hst
      exact hexec _ _ (by simp only [State.cmdScrubStop, hst] <;> rfl)

/-! ### The COMMAND write by its code (R107, R194) -/

theorem State.cmdOfCode_unknown {code : BitVec 8} (h : code ∉ commandCodes) (arg : BitVec 8) :
    s.cmdOfCode code arg = (.unknown, s) := by
  unfold State.cmdOfCode
  split
  case h_19 => rfl
  all_goals
    rename_i hcode
    refine absurd ?_ h
    rw [show code = BitVec.ofNat 8 code.toNat from by simp, hcode]
    decide

/-- Settles O29: an unknown code by the list of codes; every code by what a command answers (`State.Answers`). -/
theorem commandResults : Obligations.CommandResults := by
  unfold Obligations.CommandResults
  refine ⟨fun s b code arg htaken hcode => ?_, fun s b code arg htaken => ?_⟩
  · exact congrArg Host.Outcome.next (State.busWrite_command_of_taken htaken (State.cmdOfCode_unknown hcode arg) code)
  · intro u
    have hexec : s.busWrite b (fun v => v.command code (State.cmdOfCode code arg)) =
        (State.cmdOfCode code arg u).2.answered (State.cmdOfCode code arg u).1 code :=
      State.busWrite_command_of_taken (f := State.cmdOfCode code arg) htaken rfl code
    have hresult : (State.cmdOfCode code arg u).1 ≠ .none ∧
        ((State.cmdOfCode code arg u).1 ≠ .done → (State.cmdOfCode code arg u).2 = u) := by
      rcases State.cmdOfCode_answers u arg code with ⟨hdone, _⟩ | ⟨_, hnone, hsame⟩
      · exact ⟨by simp [hdone], fun h => absurd hdone h⟩
      · exact ⟨hnone, fun _ => hsame⟩
    refine ⟨s.busWrite b (fun v => v.command code (State.cmdOfCode code arg)), rfl, ?_, ?_, ?_, ?_⟩
    · rw [hexec]
      rfl
    · rw [hexec]
      exact hresult.1
    · rw [hexec]
      exact fun h => congrArg (·.answered (State.cmdOfCode code arg u).1 code) (hresult.2 h)
    · refine ⟨?_, ?_, ?_, ?_, ?_, ?_, ?_, ?_, ?_, ?_, ?_, ?_, ?_, ?_, ?_, ?_, ?_, ?_⟩
      all_goals
        rintro rfl
        rfl

end Sys2Proof.Machine
end

section
/-! The word lock table (chapter 03): creation, delivery and removal, and the cancellation of a port's entry beside a change
of the port. -/

namespace Sys2Proof.Machine

variable {s t u : State}

/-! ### The next entry for a word (R58, R63) -/

/-- The next entry's steps put no port into the table. -/
theorem State.lockNext_ports (n : Nat) (w : Addr) (s : State) :
    ∀ y ∈ (State.lockNext n w s).wlt, ∃ x ∈ s.wlt, y.port = x.port := by
  induction n generalizing s with
  | zero => exact fun y hy => ⟨y, hy, rfl⟩
  | succ n ih =>
    have hmap : ∀ (q : Port) (st : LockState), ∀ y ∈ s.wlt.map (fun e => if e.port = q then { e with state := st } else e),
        ∃ x ∈ s.wlt, y.port = x.port := fun q st y hy => by
      obtain ⟨x, hx, rfl⟩ := List.mem_map.1 hy
      exact ⟨x, hx, by split <;> rfl⟩
    cases hf : s.firstLock w with
    | none =>
      obtain ⟨x, hx⟩ := s.releaseHeldAtomic_shape w
      rw [State.lockNext_none hf, hx]
      exact fun y hy => ⟨y, hy, rfl⟩
    | some e =>
      by_cases he : e.state = .waitTurn
      · cases hk : s.mbAsk w with
        | none =>
          rw [State.lockNext_clear hf he hk]
          exact hmap _ _
        | forced i =>
          rw [State.lockNext_forced hf he hk]
          exact hmap _ _
        | faulted =>
          rw [State.lockNext_faulted hf he hk]
          intro y hy
          obtain ⟨x, hx, hport⟩ := ih _ y hy
          rw [State.deliver_wlt] at hx
          exact ⟨x, (List.mem_filter.1 hx).1, hport⟩
      · rw [State.lockNext_waiting hf he]
        exact fun y hy => ⟨y, hy, rfl⟩

theorem State.aeUpdate_mb (s : State) : s.aeUpdate.mb = s.mb := s.aeUpdate_follows.2 .mb (by simp)
theorem State.aeUpdate_ppt (s : State) : s.aeUpdate.ppt = s.ppt := s.aeUpdate_follows.2 .ppt (by simp)

/-- A removal takes the port out of the table. -/
theorem State.removeLock_hasLock (s : State) (e : LockEntry) (r : Option LockResult) :
    (s.removeLock e r).hasLock e.port = false := by
  rw [State.removeLock_eq, State.hasLock, State.aeUpdate_wlt, List.any_eq_false]
  intro y hy
  obtain ⟨x, hx, hport⟩ := State.lockNext_ports _ _ _ y hy
  rw [State.afterRemoval_wlt] at hx
  simpa [hport] using (List.mem_filter.1 hx).2

theorem State.releaseHeldAtomic_mb (s : State) (w : Addr) : (s.releaseHeldAtomic w).mb = s.mb := by
  obtain ⟨x, hx⟩ := s.releaseHeldAtomic_shape w
  rw [hx]
  rfl

theorem State.releaseHeldAtomic_sp (s : State) (w : Addr) (p : SpId) : (s.releaseHeldAtomic w).sp p = s.sp p := by
  obtain ⟨x, hx⟩ := s.releaseHeldAtomic_shape w
  rw [hx, State.setPpt_sp]

/-- Whether a held processor atomic is released, and how, is said by the processor port alone. -/
theorem State.releaseHeldAtomic_ppt_of (h : t.ppt = s.ppt) (w : Addr) :
    (t.releaseHeldAtomic w).ppt = (s.releaseHeldAtomic w).ppt := by
  unfold State.releaseHeldAtomic State.setPpPhase
  rw [h]
  cases s.ppt.exec with
  | none => exact h
  | some x =>
    dsimp only
    split
    · rfl
    · exact h

/-- The oldest entry left for the word stands first for it after the removal. -/
theorem State.afterRemoval_firstLock {e x : LockEntry} {older younger : List LockEntry}
    (h : s.wlt.filter (·.port != e.port) = older ++ x :: younger) (ho : ∀ y ∈ older, y.addr ≠ e.addr)
    (hx : x.addr = e.addr) (r : Option LockResult) : (s.afterRemoval e r).firstLock e.addr = some x :=
  State.firstLock_of_split ((s.afterRemoval_wlt e r).trans h) ho hx

/-- With an entry left for the word that has been waiting, or that finds no FAULTED entry, the removal touches the table, the
buffer and the arbiter alone. -/
theorem State.removeLock_next {e x : LockEntry} {r : Option LockResult}
    (hf : (s.afterRemoval e r).firstLock e.addr = some x) :
    (x.state ≠ .waitTurn → s.removeLock e r = (s.afterRemoval e r).aeUpdate) ∧
    (x.state = .waitTurn → s.mbAsk e.addr = .none →
      s.removeLock e r = ((s.afterRemoval e r).setLockState x.port .waitGrant).aeUpdate) ∧
    (∀ i, x.state = .waitTurn → s.mbAsk e.addr = .forced i →
      s.removeLock e r =
        (((s.afterRemoval e r).setMb (s.mb.setEntry i { s.mb.entry i with forced := true })).setLockState x.port
          .waitDrain).aeUpdate) := by
  have hmb := s.afterRemoval_mb e r
  have hask : (s.afterRemoval e r).mbAsk e.addr = s.mbAsk e.addr := State.mbAsk_of_mb hmb _
  refine ⟨fun hx => ?_, fun hx hm => ?_, fun i hx hm => ?_⟩
  · rw [State.removeLock_eq, State.lockNext_waiting hf hx]
  · rw [State.removeLock_eq, State.lockNext_clear hf hx (hask.trans hm)]
  · rw [State.removeLock_eq, State.lockNext_forced hf hx (hask.trans hm), hmb]

/-- The statement's words for a removal. -/
theorem State.removeLock_entryRemoved (s : State) (e : LockEntry) (r : Option LockResult) :
    EntryRemoved s (s.removeLock e r) e := by
  refine ⟨s.removeLock_hasLock e r, s.removeLock_aeFollows e r, fun hlast => ?_, fun older x younger hsplit ho hx => ?_⟩
  · rw [State.removeLock_last hlast, State.aeUpdate_wlt, State.aeUpdate_mb, State.releaseHeldAtomic_wlt,
      State.releaseHeldAtomic_mb]
    exact ⟨s.afterRemoval_wlt e r, s.afterRemoval_mb e r⟩
  · obtain ⟨hwait, hclear, hforced⟩ := State.removeLock_next (State.afterRemoval_firstLock hsplit ho hx r)
    refine ⟨fun hst => ?_, fun hst hm => ?_, fun i hst hm => ?_⟩
    · rw [hwait hst, State.aeUpdate_wlt, State.aeUpdate_mb]
      exact ⟨s.afterRemoval_wlt e r, s.afterRemoval_mb e r⟩
    · rw [hclear hst hm, State.aeUpdate_wlt, State.aeUpdate_mb]
      exact ⟨congrArg _ (s.afterRemoval_wlt e r), s.afterRemoval_mb e r⟩
    · rw [hforced i hst hm, State.aeUpdate_wlt, State.aeUpdate_mb]
      exact ⟨congrArg _ (s.afterRemoval_wlt e r), rfl⟩

/-- What a removal leaves of the ports, but for the answer FAULTED to the next entry. -/
theorem State.removeLock_ports {e x : LockEntry} {r : Option LockResult}
    (hf : (s.afterRemoval e r).firstLock e.addr = some x) (h : x.state ≠ .waitTurn ∨ s.mbAsk e.addr ≠ .faulted) :
    (s.removeLock e r).ppt = (s.afterRemoval e r).ppt ∧ ∀ p, (s.removeLock e r).sp p = (s.afterRemoval e r).sp p := by
  obtain ⟨hwait, hclear, hforced⟩ := State.removeLock_next hf
  by_cases hst : x.state = .waitTurn
  · cases hm : s.mbAsk e.addr with
    | none =>
      rw [hclear hst hm]
      exact ⟨State.aeUpdate_ppt _, fun p => by rw [State.aeUpdate_sp, State.setLockState, State.setWlt_sp]⟩
    | forced i =>
      rw [hforced i hst hm]
      exact ⟨State.aeUpdate_ppt _, fun p => by rw [State.aeUpdate_sp, State.setLockState, State.setWlt_sp, State.setMb_sp]⟩
    | faulted => exact absurd hm (h.resolve_left (not_not.2 hst))
  · rw [hwait hst]
    exact ⟨State.aeUpdate_ppt _, fun p => State.aeUpdate_sp _ p⟩

theorem State.removeLock_last_ports {e : LockEntry} {r : Option LockResult}
    (h : ∀ x ∈ s.wlt.filter (·.port != e.port), x.addr ≠ e.addr) :
    (s.removeLock e r).ppt = ((s.afterRemoval e r).releaseHeldAtomic e.addr).ppt ∧
    ∀ p, (s.removeLock e r).sp p = (s.afterRemoval e r).sp p := by
  rw [State.removeLock_last h]
  exact ⟨State.aeUpdate_ppt _, fun p => by rw [State.aeUpdate_sp, State.releaseHeldAtomic_sp]⟩

theorem State.removeLock_sameBut (s : State) (e : LockEntry) (r : Option LockResult) :
    s.sameBut (s.removeLock e r) [.wlt, .mb, .arb, .ppt, .sp0, .sp1] := by
  rw [State.removeLock_eq]
  have hafter : s.sameBut (s.afterRemoval e r) [.wlt, .ppt, .sp0, .sp1] :=
    (s.setWlt_sameBut _).then (s.afterRemoval_sameBut e r) (by simp) (by simp)
  exact (hafter.then (State.lockNext_sameBut _ _ _) (cs := [.wlt, .mb, .ppt, .sp0, .sp1]) (by simp) (by simp)).then
    (State.aeUpdate_follows _).2 (by simp) (by simp)

/-! ### Creation (R54 to R58) -/

/-- The table with a new entry, the youngest. -/
theorem State.createLock_eq {e : LockEntry} (h : s.hasLock e.port = false) :
    s.createLock e = (State.lockNext (s.wlt.length + 2) e.addr (s.setWlt (s.wlt ++ [e]))).aeUpdate := by
  simp [State.createLock, h]

/-- No entry of the table is the port's. -/
theorem State.hasLock_eq_false_iff {q : Port} : s.hasLock q = false ↔ ∀ x ∈ s.wlt, x.port ≠ q := by
  simp [State.hasLock]

/-- A new entry's state changes alone. -/
theorem State.setLockState_new {e : LockEntry} (h : s.hasLock e.port = false) (st : LockState) :
    (s.wlt ++ [e]).map (fun y => if y.port = e.port then { y with state := st } else y) =
      s.wlt ++ [{ e with state := st }] := by
  rw [List.map_append, List.map_cons, List.map_nil, if_pos rfl]
  congr 1
  exact (List.map_congr_left fun x hx => if_neg (State.hasLock_eq_false_iff.1 h x hx)).trans (List.map_id _)

/-- A new entry behind none of its word stands first for it. -/
theorem State.firstLock_new {e : LockEntry} (h : ∀ x ∈ s.wlt, x.addr ≠ e.addr) :
    (s.setWlt (s.wlt ++ [e])).firstLock e.addr = some e :=
  State.firstLock_of_split rfl h rfl

/-- A new entry that finds a FAULTED one leaves the table again, answered (R58). -/
theorem State.createLock_of_faulted {e : LockEntry} (hlock : s.hasLock e.port = false) (hst : e.state = .waitTurn)
    (hfirst : ∀ x ∈ s.wlt, x.addr ≠ e.addr) (hm : s.mbAsk e.addr = .faulted) :
    s.createLock e = ((s.deliver e .faulted).releaseHeldAtomic e.addr).aeUpdate := by
  have herase : (s.setWlt (s.wlt ++ [e])).eraseLock e.port = s := by
    have hfilter : (s.wlt ++ [e]).filter (·.port != e.port) = s.wlt := by
      rw [List.filter_append, List.filter_eq_self.2 fun x hx => by simpa using State.hasLock_eq_false_iff.1 hlock x hx]
      simp
    show (s.setWlt (s.wlt ++ [e])).setWlt ((s.wlt ++ [e]).filter (·.port != e.port)) = s
    rw [hfilter]
    rfl
  have hnone : (s.deliver e .faulted).firstLock e.addr = none := by
    simpa [State.firstLock] using hfirst
  rw [State.createLock_eq hlock, State.lockNext_faulted (State.firstLock_new hfirst) hst hm, herase,
    State.lockNext_none hnone]

theorem State.createLock_aeFollows {e : LockEntry} (h : s.hasLock e.port = false) : AeFollows s (s.createLock e) := by
  rw [State.createLock_eq h]
  exact State.aeUpdate_follows_of (State.lockNext_sameBut _ _ _ .arb (by simp))
    (State.lockNext_sameBut _ _ _ .aif (by simp))

/-! ### Delivery (R53, R67, R68, R70) -/

theorem State.deliver_cancelled {e : LockEntry} (h : e.cancelled = true) (r : LockResult) : s.deliver e r = s := by
  simp [State.deliver, h]

theorem State.deliver_pp {e : LockEntry} (hc : e.cancelled = false) (hp : e.port = .pp) (r : LockResult) :
    s.deliver e r = s.ppComplete r.cplStatus r.old := by
  simp [State.deliver, hc, hp, streamOf]

theorem State.deliver_sp {e : LockEntry} {p : SpId} (hc : e.cancelled = false) (hp : e.port = p.port) (r : LockResult) :
    s.deliver e r = s.answerAtomic p e.tag r := by
  simp [State.deliver, hc, hp]

/-- A stream port after the READ_BEAT of its atomic (R68). -/
def StreamPort.atomicBeat (x : StreamPort) (b : Burst) (tag : Tag) (r : LockResult) : StreamPort :=
  { x with
    burst := some { b with done := 1 }
    outbound := x.outbound ++ [.readBeat tag r.old r.outcome.beatStatus] }

theorem State.answerAtomic_of_faulted {p : SpId} {b : Burst} (hb : (s.sp p).burst = some b) {r : LockResult}
    (hr : r.status = .entryFaulted) (tag : Tag) :
    s.answerAtomic p tag r = s.setSp p ((s.sp p).ended b.hdr.tag .entryFaulted b.done) := by
  simp only [State.answerAtomic, hb, hr, if_true]
  exact State.endBurst_eq_ended hb _

theorem State.answerAtomic_of_value {p : SpId} {b : Burst} (hb : (s.sp p).burst = some b) {r : LockResult}
    (hr : r.status ≠ .entryFaulted) (ho : r.outcome ≠ .uncorrectable) (tag : Tag) :
    s.answerAtomic p tag r = s.setSp p (((s.sp p).atomicBeat b tag r).ended b.hdr.tag r.endStatus 1) := by
  have hbeat : (s.send p [.readBeat tag r.old r.outcome.beatStatus]).setBurst p (some { b with done := 1 }) =
      s.setSp p ((s.sp p).atomicBeat b tag r) := by
    simp [State.send, State.setBurst, StreamPort.atomicBeat]
  simp only [State.answerAtomic, hb, hr, ho, if_false, hbeat]
  rw [State.endBurst_eq_ended (b := { b with done := 1 }) (by simp [StreamPort.atomicBeat]), State.setSp_setSp,
    State.setSp_sp_same]

theorem StreamPort.stopped_burst (x : StreamPort) (c : SuspendCause) : (x.stopped c).burst = x.burst := by
  unfold StreamPort.stopped
  split <;> rfl

theorem State.answerAtomic_of_uncorrectable {p : SpId} {b : Burst} (hb : (s.sp p).burst = some b) {r : LockResult}
    (hr : r.status ≠ .entryFaulted) (ho : r.outcome = .uncorrectable) (tag : Tag) :
    s.answerAtomic p tag r =
      s.setSp p ((((s.sp p).atomicBeat b tag r).stopped .uncorrectable).ended b.hdr.tag r.endStatus 1) := by
  have hbeat : (s.send p [.readBeat tag r.old DecodeOutcome.uncorrectable.beatStatus]).setBurst p
      (some { b with done := 1 }) = s.setSp p ((s.sp p).atomicBeat b tag r) := by
    simp [State.send, State.setBurst, StreamPort.atomicBeat, ho]
  simp only [State.answerAtomic, hb, hr, ho, if_false, if_true, hbeat, State.suspend_eq_stopped, State.setSp_setSp,
    State.setSp_sp_same]
  rw [State.endBurst_eq_ended (b := { b with done := 1 }), State.setSp_setSp, State.setSp_sp_same]
  rw [State.setSp_sp_same, StreamPort.stopped_burst]
  rfl

/-! ### The obligation -/

theorem lockAnswers (s : State) (w : Addr) :
    ((∀ e, (s.mb.entry e).state = .free ∨ (s.mb.entry e).addr ≠ w) → s.mbAsk w = .none) ∧
    (∀ e, (s.mb.entry e).state ≠ .free → (s.mb.entry e).addr = w →
      (∀ f, (s.mb.entry f).state ≠ .free → (s.mb.entry f).addr = w → f = e) →
      ((s.mb.entry e).state = .faulted → s.mbAsk w = .faulted) ∧
      ((s.mb.entry e).state ≠ .faulted → s.mbAsk w = .forced e)) := by
  refine ⟨fun h => ?_, fun e hne haddr huniq => ?_⟩
  · simp [State.mbAsk, MergeBuffer.entryFor_of_none h]
  · have hfor := MergeBuffer.entryFor_of_unique hne haddr huniq
    exact ⟨fun h => by simp [State.mbAsk, hfor, h], fun h => by simp [State.mbAsk, hfor, h]⟩

/-- Settles O50: creation by the table and the buffer's answer, removal by the entry left for the word, delivery by the
port. -/
theorem lockCreationAndRemoval : Obligations.LockCreationAndRemoval := by
  unfold Obligations.LockCreationAndRemoval
  refine ⟨⟨rfl, fun _ => rfl, rfl⟩, fun s e => ⟨fun h => ?_, fun hlock hst => ⟨?_, fun hfirst => ⟨?_, ?_, ?_⟩⟩⟩,
    lockAnswers, fun s e r => ?_, fun s e r => ⟨fun hc => State.deliver_cancelled hc r, fun x hc hp hx => ?_,
      fun p b hc hp hb => ?_⟩⟩
  · simp [State.createLock, h]
  · intro older x younger hsplit ho haddr hx
    have hnext : (s.setWlt (s.wlt ++ [e])).firstLock e.addr = some x :=
      State.firstLock_of_split (younger := younger ++ [e]) (by simp [hsplit]) ho haddr
    have hcreate := State.createLock_eq hlock
    rw [State.lockNext_waiting hnext hx] at hcreate
    refine ⟨?_, ?_, State.createLock_aeFollows hlock⟩
    · rw [hcreate, State.aeUpdate_wlt]
      rfl
    · rw [hcreate]
      exact (s.setWlt_sameBut _).then (State.aeUpdate_follows _).2 (by simp) (by simp)
  · intro hm
    have hcreate := State.createLock_eq hlock
    rw [State.lockNext_clear (State.firstLock_new hfirst) hst hm] at hcreate
    refine ⟨?_, ?_, State.createLock_aeFollows hlock⟩
    · rw [hcreate, State.aeUpdate_wlt]
      exact State.setLockState_new hlock _
    · rw [hcreate]
      exact (s.setWlt_sameBut _).then (State.aeUpdate_follows _).2 (by simp) (by simp)
  · intro i hm
    have hcreate := State.createLock_eq hlock
    rw [State.lockNext_forced (State.firstLock_new hfirst) hst hm] at hcreate
    refine ⟨?_, ?_, State.createLock_aeFollows hlock, ?_⟩
    · rw [hcreate, State.aeUpdate_wlt]
      exact State.setLockState_new hlock _
    · rw [hcreate]
      exact (((s.setWlt_sameBut _).then (State.setMb_sameBut _ _) (cs := [.wlt, .mb]) (by simp) (by simp)).then
        (State.setWlt_sameBut _ _) (cs := [.wlt, .mb]) (by simp) (by simp)).then
        (State.aeUpdate_follows _).2 (by simp) (by simp)
    · rw [hcreate, State.aeUpdate_mb]
      rfl
  · intro hm
    have hcreate := State.createLock_of_faulted hlock hst hfirst hm
    refine ⟨?_, State.createLock_aeFollows hlock, fun x hp hc hx => ?_, fun p b hp hc hb => ?_⟩
    · rw [hcreate, State.aeUpdate_wlt, State.releaseHeldAtomic_wlt, State.deliver_wlt]
    · have hdone := State.ppComplete_some hx .entryFaulted 0#32
      have hheld : (s.ppComplete .entryFaulted 0#32).releaseHeldAtomic e.addr = s.ppComplete .entryFaulted 0#32 := by
        simp [State.releaseHeldAtomic, hdone]
      have hcreate : s.createLock e = (s.ppComplete .entryFaulted 0#32).aeUpdate := by
        rw [hcreate, State.deliver_pp hc hp]
        exact congrArg State.aeUpdate hheld
      rw [hcreate]
      refine ⟨?_, ?_⟩
      · rw [hdone]
        exact (s.setPpt_sameBut _).then (State.aeUpdate_follows _).2 (by simp) (by simp)
      · rw [State.aeUpdate_ppt, hdone]
        rfl
    · rw [hcreate, State.aeUpdate_sp, State.releaseHeldAtomic_sp, State.deliver_sp hc hp,
        State.answerAtomic_of_faulted hb rfl, State.setSp_sp_same]
  · refine ⟨s.removeLock_entryRemoved e r, fun hlast => ?_, fun older x younger hsplit ho hx => ?_,
      s.removeLock_sameBut e r⟩
    · cases r <;> exact State.removeLock_last_ports hlast
    · have hf := State.afterRemoval_firstLock hsplit ho hx r
      refine ⟨fun h => ?_, fun hst hm => ?_⟩
      · cases r <;> exact State.removeLock_ports hf h
      · cases r <;> exact State.removeLock_faultedNext hf hst hm
  · rw [State.deliver_pp hc hp, State.ppComplete_some hx]
    obtain ⟨status, old, outcome⟩ := r
    cases status with
    | done => cases outcome <;> rfl
    | casFailed | uncorrectable | entryFaulted => rfl
  · refine ⟨fun hr => ?_, fun hr ho => ?_, fun hr ho => ?_, fun hr ho => ?_⟩
    · rw [State.deliver_sp hc hp, State.answerAtomic_of_faulted hb hr]
    · rw [State.deliver_sp hc hp, State.answerAtomic_of_value hb (by simp [hr]) ho]
      simp only [LockResult.endStatus, hr]
      rfl
    · rw [State.deliver_sp hc hp, State.answerAtomic_of_value hb (by simp [hr]) ho]
      simp only [LockResult.endStatus, hr]
      rfl
    · rw [State.deliver_sp hc hp, State.answerAtomic_of_uncorrectable hb (by simp [hr]) ho]
      simp only [LockResult.endStatus, hr]
      rfl

end Sys2Proof.Machine
end

section
/-! PORT_RESET (R133): the cancellation of the port's lock entry beside a change of the port, then the reset by the burst's
phase. -/

namespace Sys2Proof.Machine

variable {s t u : State} {p : SpId} {x : StreamPort}

/-! ### The lock table beside a change of a stream port -/

theorem State.setPpt_setSp (s : State) (p : SpId) (x : StreamPort) (y : Ppt) :
    (s.setSp p x).setPpt y = (s.setPpt y).setSp p x := by cases p <;> rfl

theorem State.setWlt_setSp (s : State) (p : SpId) (x : StreamPort) (y : List LockEntry) :
    (s.setSp p x).setWlt y = (s.setWlt y).setSp p x := by cases p <;> rfl

theorem State.setMb_setSp (s : State) (p : SpId) (x : StreamPort) (y : MergeBuffer) :
    (s.setSp p x).setMb y = (s.setMb y).setSp p x := by cases p <;> rfl

theorem State.setArb_setSp (s : State) (p : SpId) (x : StreamPort) (y : Arbiter) :
    (s.setSp p x).setArb y = (s.setArb y).setSp p x := by cases p <;> rfl

theorem State.setPpPhase_setSp (s : State) (p : SpId) (x : StreamPort) (ph : PpPhase) :
    (s.setSp p x).setPpPhase ph = (s.setPpPhase ph).setSp p x := by
  unfold State.setPpPhase
  rw [State.setSp_ppt]
  cases s.ppt.exec with
  | none => rfl
  | some y => exact State.setPpt_setSp _ _ _ _

theorem State.ppComplete_setSp (s : State) (p : SpId) (x : StreamPort) (st : CplStatus) (d : Word) :
    (s.setSp p x).ppComplete st d = (s.ppComplete st d).setSp p x := by
  unfold State.ppComplete
  rw [State.setSp_ppt]
  cases s.ppt.exec with
  | none => rfl
  | some y => exact State.setPpt_setSp _ _ _ _

theorem State.setSp_setSp_other {q : SpId} (h : q ≠ p) (s : State) (x y : StreamPort) :
    (s.setSp p x).setSp q y = (s.setSp q y).setSp p x := by
  cases p <;> cases q <;> first | rfl | exact absurd rfl h

/-- The answer to an atomic of the other port. -/
theorem State.answerAtomic_setSp {q : SpId} (h : q ≠ p) (s : State) (x : StreamPort) (tag : Tag) (r : LockResult) :
    (s.setSp p x).answerAtomic q tag r = (s.answerAtomic q tag r).setSp p x := by
  have hq : (s.setSp p x).sp q = s.sp q := State.setSp_sp_other _ h x
  cases hb : (s.sp q).burst with
  | none => simp [State.answerAtomic, hb, hq]
  | some b =>
    have hbq : ((s.setSp p x).sp q).burst = some b := by rw [hq, hb]
    by_cases hr : r.status = .entryFaulted
    · rw [State.answerAtomic_of_faulted hbq hr, State.answerAtomic_of_faulted hb hr, hq, State.setSp_setSp_other h]
    · by_cases ho : r.outcome = .uncorrectable
      · rw [State.answerAtomic_of_uncorrectable hbq hr ho, State.answerAtomic_of_uncorrectable hb hr ho, hq,
          State.setSp_setSp_other h]
      · rw [State.answerAtomic_of_value hbq hr ho, State.answerAtomic_of_value hb hr ho, hq, State.setSp_setSp_other h]

theorem streamOf_eq_some {r : Port} {q : SpId} (h : streamOf r = some q) : r = q.port := by
  cases r <;> cases h <;> rfl

theorem State.deliver_setSp {e : LockEntry} (he : e.port ≠ p.port) (s : State) (x : StreamPort) (r : LockResult) :
    (s.setSp p x).deliver e r = (s.deliver e r).setSp p x := by
  unfold State.deliver
  split
  · rfl
  · cases hq : streamOf e.port with
    | none => exact State.ppComplete_setSp _ _ _ _ _
    | some q =>
      have hne : q ≠ p := fun hqp => he ((streamOf_eq_some hq).trans (congrArg SpId.port hqp))
      exact State.answerAtomic_setSp hne _ _ _ _

theorem State.releaseHeldAtomic_setSp (s : State) (p : SpId) (x : StreamPort) (w : Addr) :
    (s.setSp p x).releaseHeldAtomic w = (s.releaseHeldAtomic w).setSp p x := by
  unfold State.releaseHeldAtomic
  rw [State.setSp_ppt]
  cases s.ppt.exec with
  | none => rfl
  | some y =>
    dsimp only
    split
    · exact State.setPpPhase_setSp _ _ _ _
    · rfl

theorem State.firstLock_setSp (s : State) (p : SpId) (x : StreamPort) (w : Addr) :
    (s.setSp p x).firstLock w = s.firstLock w := by simp [State.firstLock]

theorem State.lockNext_setSp (n : Nat) (w : Addr) (x : StreamPort) (h : ∀ e ∈ s.wlt, e.port ≠ p.port) :
    State.lockNext n w (s.setSp p x) = (State.lockNext n w s).setSp p x := by
  induction n generalizing s with
  | zero => rfl
  | succ n ih =>
    have hask : (s.setSp p x).mbAsk w = s.mbAsk w := State.mbAsk_of_mb (State.setSp_mb s p x) w
    cases hf : s.firstLock w with
    | none =>
      rw [State.lockNext_none hf, State.lockNext_none ((s.firstLock_setSp p x w).trans hf), State.releaseHeldAtomic_setSp]
    | some e =>
      have hf' := (s.firstLock_setSp p x w).trans hf
      by_cases he : e.state = .waitTurn
      · cases hk : s.mbAsk w with
        | none =>
          rw [State.lockNext_clear hf he hk, State.lockNext_clear hf' he (hask.trans hk), State.setLockState,
            State.setLockState, State.setSp_wlt, State.setWlt_setSp]
        | forced i =>
          rw [State.lockNext_forced hf he hk, State.lockNext_forced hf' he (hask.trans hk), State.setSp_mb,
            State.setMb_setSp, State.setLockState, State.setLockState, State.setSp_wlt, State.setWlt_setSp]
        | faulted =>
          have hport : e.port ≠ p.port := h e (State.firstLock_some hf).1
          have hleft : ∀ y ∈ ((s.eraseLock e.port).deliver e .faulted).wlt, y.port ≠ p.port := fun y hy => by
            rw [State.deliver_wlt] at hy
            exact h y (List.mem_filter.1 hy).1
          have herase : (s.setSp p x).eraseLock e.port = (s.eraseLock e.port).setSp p x := by
            rw [State.eraseLock, State.eraseLock, State.setSp_wlt, State.setWlt_setSp]
          rw [State.lockNext_faulted hf he hk, State.lockNext_faulted hf' he (hask.trans hk), herase,
            State.deliver_setSp hport, ih hleft]
      · rw [State.lockNext_waiting hf he, State.lockNext_waiting hf' he]

theorem State.aeUpdate_setSp (s : State) (p : SpId) (x : StreamPort) :
    (s.setSp p x).aeUpdate = s.aeUpdate.setSp p x := by
  unfold State.aeUpdate State.setSlot
  simp only [State.setSp_wlt, State.setSp_arb, State.setSp_aif, State.setArb_setSp]
  repeat' split
  all_goals rfl

/-- Cancelling a port's lock entry and changing the port do not meet. -/
theorem State.cancelLock_setSp (s : State) (p : SpId) (x : StreamPort) :
    (s.setSp p x).cancelLock p.port = (s.cancelLock p.port).setSp p x := by
  unfold State.cancelLock
  rw [State.setSp_wlt]
  cases hf : s.wlt.find? (·.port == p.port) with
  | none => rfl
  | some e =>
    have hport : e.port = p.port := by simpa using List.find?_some hf
    dsimp only
    split
    · exact State.setWlt_setSp _ _ _ _
    · have hleft : ∀ y ∈ (s.eraseLock e.port).wlt, y.port ≠ p.port := fun y hy => by
        simpa [hport] using (List.mem_filter.1 hy).2
      have hafter : (s.setSp p x).afterRemoval e none = (s.eraseLock e.port).setSp p x := by
        rw [State.afterRemoval, State.eraseLock, State.eraseLock, State.setSp_wlt, State.setWlt_setSp]
      rw [State.removeLock_eq, State.removeLock_eq, hafter, State.setSp_wlt, State.lockNext_setSp _ _ _ hleft,
        State.aeUpdate_setSp]
      rfl

/-! ### What a cancellation leaves, in the statement's words (R69, R70) -/

theorem State.cancelLock_of_none (h : s.wlt.find? (·.port == p.port) = none) : s.cancelLock p.port = s := by
  simp [State.cancelLock, h]

theorem State.cancelLock_of_inArray {e : LockEntry} (h : s.wlt.find? (·.port == p.port) = some e)
    (he : e.state = .inArray) :
    s.cancelLock p.port = s.setWlt (s.wlt.map fun y => if y.port = p.port then { y with cancelled := true } else y) := by
  simp [State.cancelLock, h, he]

theorem State.cancelLock_of_waiting {e : LockEntry} (h : s.wlt.find? (·.port == p.port) = some e)
    (he : e.state ≠ .inArray) : s.cancelLock p.port = s.removeLock e none := by
  simp [State.cancelLock, h, he]

theorem State.cancelLock_lockCancelled (u : State) (p : SpId) : LockCancelled u (u.cancelLock p.port) p := by
  refine ⟨fun h => ?_, fun e h => ⟨fun he => ?_, fun he => ?_⟩⟩
  · rw [State.cancelLock_of_none h]
    exact ⟨rfl, rfl, rfl, rfl, fun _ _ => rfl⟩
  · rw [State.cancelLock_of_inArray h he]
    exact ⟨rfl, rfl, rfl, rfl, fun q _ => State.setWlt_sp _ _ q⟩
  · have hport : e.port = p.port := by simpa using List.find?_some h
    have hafter : ∀ q, (u.afterRemoval e none).sp q = u.sp q := fun q => State.setWlt_sp _ _ q
    rw [State.cancelLock_of_waiting h he, ← hport]
    refine ⟨u.removeLock_entryRemoved e none, fun hlast => ?_, fun older y younger hsplit ho hy => ⟨fun hne => ?_, fun hst hm => ?_⟩⟩
    · obtain ⟨hppt, hsp⟩ := State.removeLock_last_ports (r := none) hlast
      exact ⟨hppt.trans (State.releaseHeldAtomic_ppt_of (by rfl) _), fun q _ => (hsp q).trans (hafter q)⟩
    · obtain ⟨hppt, hsp⟩ := State.removeLock_ports (State.afterRemoval_firstLock hsplit ho hy none) hne
      exact ⟨hppt, fun q _ => (hsp q).trans (hafter q)⟩
    · rw [State.removeLock_faultedNext (State.afterRemoval_firstLock hsplit ho hy none) hst hm]
      exact ⟨rfl, rfl, rfl, rfl, fun _ _ => rfl⟩

/-- The statement speaks of the table, the buffer, the arbiter, the processor port and the other stream port alone. -/
theorem LockCancelled.of_same {v : State} (h : LockCancelled u v p) (hwlt : t.wlt = v.wlt) (hmb : t.mb = v.mb)
    (harb : t.arb = v.arb) (hppt : t.ppt = v.ppt) (hsp : ∀ q, q ≠ p → t.sp q = v.sp q) : LockCancelled u t p := by
  have hlock : ∀ q, t.hasLock q = v.hasLock q := fun q => by rw [State.hasLock, State.hasLock, hwlt]
  have hsps : ∀ f : SpId → StreamPort, (∀ q, q ≠ p → t.sp q = f q) ↔ ∀ q, q ≠ p → v.sp q = f q := fun f =>
    forall_congr' fun q => forall_congr' fun hq => by rw [hsp q hq]
  unfold LockCancelled EntryRemoved AeFollows at h ⊢
  simpa only [hwlt, hmb, harb, hppt, hlock, hsps] using h

/-! ### PORT_RESET by the burst's phase (R133) -/

/-- The port once its executing burst is cut off. -/
def StreamPort.cut (x : StreamPort) (b : Burst) : StreamPort :=
  { x with
    outbound := x.outbound ++ [.endMsg b.hdr.tag .aborted b.done]
    srq := x.srq.tail
    burst := none
    discardedRead := if b.phase = .readAccess then some b.hdr.tag else x.discardedRead }

/-- The port once its queue is answered and it is closed. -/
def StreamPort.closed (x : StreamPort) (waiting : Bool) : StreamPort :=
  { x with
    state := .disabled
    srq := []
    credits := 0
    cause := .none
    timer := 0
    inbound := if waiting then x.inbound.tail else x.inbound
    outbound := x.outbound ++ abortedEnds x.srq ++ [.close]
    expiryDue := false }

theorem State.portReset_eq (s : State) (p : SpId) :
    s.portReset p = (s.resetBurst p).setSp p (((s.resetBurst p).sp p).closed (s.beatOnLink p)) := rfl

theorem State.resetBurst_of_none (h : (s.sp p).burst = none) : s.resetBurst p = s := by simp [State.resetBurst, h]

section
variable {b : Burst}

theorem State.resetBurst_of_readWait (h : (s.sp p).burst = some b) (hph : b.phase = .readWait) :
    s.resetBurst p = (s.setSp p ((s.sp p).cut b)).setSlot (portRequester p.port) none := by
  simp only [State.resetBurst, h, hph]
  simp [StreamPort.cut, hph]

theorem State.resetBurst_of_merge (h : (s.sp p).burst = some b) (hph : b.phase = .merge) :
    s.resetBurst p = (s.setSp p ((s.sp p).cut b)).mergeWithdraw p.port := by
  simp only [State.resetBurst, h, hph]
  simp [StreamPort.cut, hph]

theorem State.resetBurst_of_locked (h : (s.sp p).burst = some b) (hph : b.phase = .locked) :
    s.resetBurst p = (s.cancelLock p.port).setSp p ((s.sp p).cut b) := by
  rw [← State.cancelLock_setSp]
  simp only [State.resetBurst, h, hph]
  simp [StreamPort.cut, hph]

theorem State.resetBurst_of_other (h : (s.sp p).burst = some b) (h1 : b.phase ≠ .readWait) (h2 : b.phase ≠ .merge)
    (h3 : b.phase ≠ .locked) : s.resetBurst p = s.setSp p ((s.sp p).cut b) := by
  simp only [State.resetBurst, h]
  split
  · exact absurd ‹_› h1
  · exact absurd ‹_› h2
  · exact absurd ‹_› h3
  all_goals rfl

/-- Whatever its phase, the cut burst leaves its port the same way. -/
theorem State.resetBurst_sp (h : (s.sp p).burst = some b) : (s.resetBurst p).sp p = (s.sp p).cut b := by
  by_cases h1 : b.phase = .readWait
  · rw [State.resetBurst_of_readWait h h1]
    exact (State.setArb_sp _ _ p).trans (State.setSp_sp_same _ p _)
  · by_cases h2 : b.phase = .merge
    · rw [State.resetBurst_of_merge h h2]
      exact (State.setMb_sp _ _ p).trans (State.setSp_sp_same _ p _)
    · by_cases h3 : b.phase = .locked
      · rw [State.resetBurst_of_locked h h3, State.setSp_sp_same]
      · rw [State.resetBurst_of_other h h1 h2 h3, State.setSp_sp_same]

end

theorem State.answered_sp (t : State) (r : CmdResult) (code : BitVec 8) (p : SpId) : (t.answered r code).sp p = t.sp p := by
  cases p <;> rfl

theorem State.cancelLock_sameBut (s : State) (p : SpId) :
    s.sameBut (s.cancelLock p.port) [.wlt, .mb, .arb, .ppt, .sp0, .sp1] := by
  unfold State.cancelLock
  split
  · exact s.sameBut_refl _
  · split
    · exact State.sameBut_mono (s.setWlt_sameBut _) (by simp)
    · exact s.removeLock_sameBut _ _

/-- What PORT_RESET touches beside the port, by the burst's phase. -/
theorem State.portReset_sameBut {bs : List Block} (h : s.sameBut (s.resetBurst p) bs) (hp : spBlock p ∈ bs)
    (hc : .ctl ∈ bs) : s.sameBut ((s.portReset p).answered .done 0x0A#8) bs :=
  (h.then (State.setSp_sameBut _ p _) (fun _ hb => hb) (by simpa using hp)).then (State.answered_sameBut _ _ _)
    (fun _ hb => hb) (by simpa using hc)

/-- The reset port, with and without a burst. -/
theorem State.portReset_sp (s : State) (p : SpId) :
    (s.portReset p).sp p = ((s.resetBurst p).sp p).closed (s.beatOnLink p) := State.setSp_sp_same _ p _

theorem spBlock_cases (p : SpId) : spBlock p = .sp0 ∨ spBlock p = .sp1 := by cases p <;> simp [spBlock]

theorem State.resetBurst_ctl (s : State) (p : SpId) : (s.resetBurst p).ctl = s.ctl := by
  cases h : (s.sp p).burst with
  | none => rw [State.resetBurst_of_none h]
  | some b =>
    by_cases h1 : b.phase = .readWait
    · rw [State.resetBurst_of_readWait h h1]
      exact State.setSp_ctl _ p _
    · by_cases h2 : b.phase = .merge
      · rw [State.resetBurst_of_merge h h2]
        exact State.setSp_ctl _ p _
      · by_cases h3 : b.phase = .locked
        · rw [State.resetBurst_of_locked h h3, State.setSp_ctl]
          exact s.cancelLock_sameBut p .ctl (by simp)
        · rw [State.resetBurst_of_other h h1 h2 h3, State.setSp_ctl]

theorem State.portReset_ctl (s : State) (p : SpId) : (s.portReset p).ctl = s.ctl :=
  (State.setSp_ctl _ p _).trans (s.resetBurst_ctl p)

theorem State.portReset_lockCancelled {b : Burst} (h : (s.sp p).burst = some b) (hph : b.phase = .locked) :
    LockCancelled s ((s.portReset p).answered .done 0x0A#8) p := by
  have hreset : s.portReset p = (s.cancelLock p.port).setSp p (((s.resetBurst p).sp p).closed (s.beatOnLink p)) := by
    rw [State.portReset_eq, State.resetBurst_of_locked h hph, State.setSp_setSp]
  rw [hreset]
  exact (s.cancelLock_lockCancelled p).of_same (State.setSp_wlt _ _ _) (State.setSp_mb _ _ _) (State.setSp_arb _ _ _)
    (State.setSp_ppt _ _ _) fun q hq => (State.answered_sp _ _ _ q).trans (State.setSp_sp_other _ hq _)

/-- Settles O20: the port by whether a burst executes, the rest by its phase. -/
theorem portReset : Obligations.PortReset := by
  unfold Obligations.PortReset
  refine fun s b arg htaken => ⟨fun harg => ?_, fun p hp => ?_⟩
  · have hcmd : ∀ u : State, u.cmdPortReset arg = (.refusedArgument, u) := fun u => by
      simp [State.cmdPortReset, portOfArg_of_above harg]
    exact congrArg Host.Outcome.next (State.busWrite_command_of_taken htaken (hcmd _) 0x0A#8)
  · have hcmd : ∀ u : State, u.cmdPortReset arg = (.done, u.portReset p) := fun u => by
      simp [State.cmdPortReset, portOfArg_of_names hp]
    refine ⟨_, congrArg Host.Outcome.next (State.busWrite_command_of_taken htaken (hcmd _) 0x0A#8), ?_⟩
    generalize s.eventStartBy b.together = u
    refine ⟨?_, ?_, fun hb => ?_, fun x hx => ?_⟩
    · rw [State.answered_ctl, State.portReset_ctl]
    · rw [State.answered_sp, State.portReset_sp]
      cases hb : (u.sp p).burst with
      | none =>
        rw [State.resetBurst_of_none hb, StreamPort.closed, hb]
        rfl
      | some x =>
        rw [State.resetBurst_sp hb]
        rfl
    · refine State.portReset_sameBut ?_ (by simp) (by simp)
      rw [State.resetBurst_of_none hb]
      exact u.sameBut_refl _
    · have hcut : u.sameBut (u.setSp p ((u.sp p).cut x)) [.ctl, spBlock p] :=
        State.sameBut_mono (u.setSp_sameBut p _) (by simp)
      cases hph : x.phase with
      | readWait =>
        have hreset := State.resetBurst_of_readWait hx hph
        refine ⟨?_, State.portReset_sameBut ?_ (by simp) (by simp)⟩
        · show ((u.resetBurst p).setSp p _).arb = _
          rw [State.setSp_arb, hreset, State.setSlot, State.setArb_arb, State.setSp_arb]
        · rw [hreset]
          exact hcut.then (State.setArb_sameBut _ _) (by simp) (by simp)
      | merge =>
        have hreset := State.resetBurst_of_merge hx hph
        refine ⟨?_, State.portReset_sameBut ?_ (by simp) (by simp)⟩
        · show ((u.resetBurst p).setSp p _).mb = _
          rw [State.setSp_mb, hreset, State.mergeWithdraw, State.setMb_mb, State.setSp_mb]
        · rw [hreset]
          exact hcut.then (State.setMb_sameBut _ _) (by simp) (by simp)
      | locked =>
        have hreset := State.resetBurst_of_locked hx hph
        refine ⟨State.portReset_lockCancelled hx hph, State.portReset_sameBut ?_ ?_ (by simp)⟩
        · rw [hreset]
          refine (u.cancelLock_sameBut p).then (State.setSp_sameBut _ p _) (by simp) ?_
          cases p <;> simp [spBlock]
        · cases p <;> simp [spBlock]
      | readHold | readAccess | beatWait | admitHold | operandWait | operandBlocked =>
        refine State.portReset_sameBut ?_ (by simp) (by simp)
        rw [State.resetBurst_of_other hx (by simp [hph]) (by simp [hph]) (by simp [hph])]
        exact hcut

end Sys2Proof.Machine
end

section
/-! RESOLVE_DISCARD and RESOLVE_FORCE (R42, R43), FILL_START and FILL_STOP (R165, R166, R170). -/

namespace Sys2Proof.Machine

variable {s t u : State} {b : Bus}

/-! ### RESOLVE_DISCARD and RESOLVE_FORCE (R42, R43) -/

section
variable {arg : BitVec 8} {e : Fin 8}

theorem State.cmdResolveDiscard_of_above (h : 8#8 ≤ arg) : s.cmdResolveDiscard arg = (.refusedArgument, s) := by
  simp [State.cmdResolveDiscard, entryOfArg_of_above h]

theorem State.cmdResolveForce_of_above (h : 8#8 ≤ arg) : s.cmdResolveForce arg = (.refusedArgument, s) := by
  simp [State.cmdResolveForce, entryOfArg_of_above h]

theorem State.cmdResolveDiscard_of_other (he : arg.toNat = e) (h : (s.mb.entry e).state ≠ .faulted) :
    s.cmdResolveDiscard arg = (.refusedState, s) := by
  simp [State.cmdResolveDiscard, entryOfArg_of_names he, h]

theorem State.cmdResolveDiscard_of_faulted (he : arg.toNat = e) (h : (s.mb.entry e).state = .faulted) :
    s.cmdResolveDiscard arg = (.done, s.resolveDiscard e) := by
  simp [State.cmdResolveDiscard, entryOfArg_of_names he, h]

theorem State.cmdResolveForce_of_refused (he : arg.toNat = e)
    (h : ¬ ((s.mb.entry e).state = .faulted ∧ (s.mb.entry e).resolvePending = false)) :
    s.cmdResolveForce arg = (.refusedState, s) := by
  simp only [State.cmdResolveForce, entryOfArg_of_names he]
  exact if_neg h

theorem State.cmdResolveForce_of_taken (he : arg.toNat = e)
    (h : (s.mb.entry e).state = .faulted ∧ (s.mb.entry e).resolvePending = false) :
    s.cmdResolveForce arg = (.done, s.setMb (s.mb.setEntry e (s.mb.entry e).force)) := by
  simp only [State.cmdResolveForce, entryOfArg_of_names he]
  exact if_pos h

end

theorem MergeBuffer.release_same (mb : MergeBuffer) (e : Fin 8) : (mb.release e).entry e = .default :=
  mb.setEntry_same e _

theorem MergeBuffer.release_other (mb : MergeBuffer) {e f : Fin 8} (h : f ≠ e) : (mb.release e).entry f = mb.entry f :=
  mb.setEntry_other h _

theorem State.resolveDiscard_of_waiting {e : Fin 8} (h : s.mb.drain = { phase := .resolveWait, entry := some e }) :
    s.resolveDiscard e = (s.setMb (s.mb.release e).drainIdle).setSlot .dr none := by
  simp [State.resolveDiscard, h]

theorem State.resolveDiscard_of_other {e : Fin 8} (h : s.mb.drain ≠ { phase := .resolveWait, entry := some e }) :
    s.resolveDiscard e = s.setMb (s.mb.release e) := by
  simp [State.resolveDiscard, h]

/-- Of the buffer, a RESOLVE_DISCARD changes the drain engine or not; the rest is the release of the entry. -/
theorem State.resolveDiscard_mb (s : State) (e : Fin 8) :
    (s.resolveDiscard e).mb = { s.mb.release e with drain := (s.resolveDiscard e).mb.drain } := by
  unfold State.resolveDiscard
  split <;> rfl

theorem getLsbD_force (x : Entry) {k : Nat} (hk : k < 32) :
    x.force.data.getLsbD k = (x.mask.getLsbD (k / 8) && x.data.getLsbD k) := by
  have hlane := getLsbD_laneBits x.mask ⟨k, hk⟩
  simp only [Entry.force, overlayLanes, BitVec.zero_and, BitVec.zero_or, BitVec.getLsbD_and, hlane]
  exact Bool.and_comm _ _

/-- Settles O23: the argument, the entry's state, then its effect. -/
theorem resolveCommands : Obligations.ResolveCommands := by
  unfold Obligations.ResolveCommands
  refine fun s b arg htaken => ⟨fun habove => ⟨?_, ?_⟩, fun e he =>
    ⟨fun hst => ⟨?_, ?_⟩, fun hst => ?_, fun hst hpend => ?_, fun hst hpend => ?_⟩⟩
  · exact congrArg Host.Outcome.next
      (State.busWrite_command_of_taken htaken (State.cmdResolveDiscard_of_above habove) 0x19#8)
  · exact congrArg Host.Outcome.next (State.busWrite_command_of_taken htaken (State.cmdResolveForce_of_above habove) 0x1A#8)
  · exact congrArg Host.Outcome.next
      (State.busWrite_command_of_taken htaken (State.cmdResolveDiscard_of_other he hst) 0x19#8)
  · exact congrArg Host.Outcome.next
      (State.busWrite_command_of_taken htaken (State.cmdResolveForce_of_refused he fun h => hst h.1) 0x1A#8)
  · refine ⟨_, congrArg Host.Outcome.next
      (State.busWrite_command_of_taken htaken (State.cmdResolveDiscard_of_faulted he hst) 0x19#8), ?_⟩
    generalize s.eventStartBy b.together = u
    have hmb := u.resolveDiscard_mb e
    refine ⟨?_, ?_, fun f hf => ?_, ?_, ?_, ?_, ?_, ?_, fun hd => ?_, fun hd => ?_⟩
    · by_cases hd : u.mb.drain = { phase := .resolveWait, entry := some e }
      · rw [State.resolveDiscard_of_waiting hd]
        exact (u.setMb_sameBut _).then (State.setArb_sameBut _ _) (by simp) (by simp)
      · rw [State.resolveDiscard_of_other hd]
        exact State.sameBut_mono (u.setMb_sameBut _) (by simp)
    · rw [hmb]
      exact u.mb.release_same e
    · rw [hmb]
      exact u.mb.release_other hf
    · exact congrArg MergeBuffer.age hmb
    · exact (congrArg MergeBuffer.waiting hmb).trans rfl
    · exact (congrArg MergeBuffer.held hmb).trans rfl
    · exact (congrArg MergeBuffer.faultedCount hmb).trans rfl
    · exact (congrArg MergeBuffer.view hmb).trans rfl
    · rw [State.resolveDiscard_of_waiting hd]
      exact ⟨rfl, rfl⟩
    · rw [State.resolveDiscard_of_other hd]
      exact ⟨rfl, rfl⟩
  · exact congrArg Host.Outcome.next
      (State.busWrite_command_of_taken htaken (State.cmdResolveForce_of_refused he fun h => by simp [hpend] at h) 0x1A#8)
  · exact ⟨_, congrArg Host.Outcome.next
      (State.busWrite_command_of_taken htaken (State.cmdResolveForce_of_taken he ⟨hst, hpend⟩) 0x1A#8), rfl,
      fun k hk => getLsbD_force _ hk⟩

/-! ### FILL_START and FILL_STOP (R165, R166, R170) -/

theorem inRange_iff {first last w : Addr} :
    inRange first last w = true ↔ first.toNat ≤ w.toNat ∧ w.toNat ≤ last.toNat := by
  simp [inRange, BitVec.le_def]

theorem MergeBuffer.rangeBusy_iff {mb : MergeBuffer} {first last : Addr} :
    mb.rangeBusy first last = true ↔
      (∃ e, (mb.entry e).state ≠ .free ∧ inRange first last (mb.entry e).addr = true) ∨
      ∃ m ∈ mb.waiting ++ mb.held, inRange first last m.addr = true := by
  simp only [MergeBuffer.rangeBusy, Bool.or_eq_true, MergeBuffer.anyEntry_eq_true, List.any_eq_true, Bool.and_eq_true,
    Entry.active, bne_iff_ne]

/-- What counts as a port's read in the range (R165, log 14). -/
theorem State.portReadIn_iff {first last : Addr} :
    s.portReadIn first last = true ↔
      (∃ r q a, (r = .pp ∨ r = .sp0 ∨ r = .sp1) ∧ s.arb.slots.get r = some q ∧ q.addr = some a ∧
        inRange first last a = true) ∨
      (∃ x, s.aif.access = some x ∧ (x.requester = .pp ∨ x.requester = .sp0 ∨ x.requester = .sp1) ∧
        inRange first last x.addr = true) ∨
      ∃ p x, (s.sp p).burst = some x ∧ x.phase = .readWait ∧ inRange first last x.word = true := by
  unfold State.portReadIn
  rw [Bool.or_eq_true, Bool.or_eq_true, or_assoc]
  refine or_congr ?_ (or_congr ?_ ?_)
  · rw [List.any_eq_true]
    constructor
    · rintro ⟨o, ho, h⟩
      split at h
      · rename_i k a
        simp only [List.mem_cons, List.not_mem_nil, or_false] at ho
        rcases ho with ho | ho | ho
        · exact ⟨.pp, ⟨k, some a⟩, a, .inl rfl, ho.symm, rfl, h⟩
        · exact ⟨.sp0, ⟨k, some a⟩, a, .inr (.inl rfl), ho.symm, rfl, h⟩
        · exact ⟨.sp1, ⟨k, some a⟩, a, .inr (.inr rfl), ho.symm, rfl, h⟩
      all_goals cases h
    · rintro ⟨r, ⟨k, addr⟩, a, hr, hq, rfl, h⟩
      refine ⟨some ⟨k, some a⟩, ?_, h⟩
      rw [← hq]
      rcases hr with rfl | rfl | rfl <;> simp [Slots.get]
  · simp [Option.any_eq_true, or_assoc]
  · rw [List.any_eq_true]
    constructor
    · rintro ⟨o, ho, h⟩
      split at h
      · rename_i x
        simp only [List.mem_cons, List.not_mem_nil, or_false] at ho
        have hx : x.phase = .readWait ∧ inRange first last x.word = true := by simpa using h
        rcases ho with ho | ho
        · exact ⟨.sp0, x, ho.symm, hx⟩
        · exact ⟨.sp1, x, ho.symm, hx⟩
      · cases h
    · rintro ⟨p, x, hx, hph, hin⟩
      refine ⟨some x, ?_, by simp [hph, hin]⟩
      rw [← hx]
      cases p <;> simp

theorem State.cmdFillStart_of_not_ready (h : ¬ (s.ctl.state = .running ∧ s.sce.state = .idle)) :
    s.cmdFillStart = (.refusedState, s) := if_pos h

theorem State.fillRange_iff :
    (s.sce.regFillLast < s.sce.regFillFirst ∨ s.cfg.size ≤ s.sce.regFillLast.toNat) ↔
      ¬ (s.sce.regFillFirst.toNat ≤ s.sce.regFillLast.toNat ∧
        s.sce.regFillLast.toNat < 65536 * 2 ^ s.cfg.memsize.toNat) := by
  rw [BitVec.lt_def, Settings.size]
  omega

theorem State.cmdFillStart_of_ready (h : s.ctl.state = .running ∧ s.sce.state = .idle) :
    s.cmdFillStart =
      if s.sce.regFillLast < s.sce.regFillFirst ∨ s.cfg.size ≤ s.sce.regFillLast.toNat then (.refusedArgument, s)
      else if s.masterWork s.sce.regFillFirst s.sce.regFillLast then (.refusedState, s)
      else (.done, s.fillBegin) :=
  if_neg (not_not.2 h)

/-- Settles O25: FILL_START by its three tests, FILL_STOP by the engine's state. -/
theorem fillCommands : Obligations.FillCommands := by
  unfold Obligations.FillCommands
  intro s b arg htaken u first last stateOk rangeOk within portRead work owed
  have hstart : ∀ r t, u.cmdFillStart = (r, t) → exec (.fillStart b arg) s = .next (t.answered r 0x22#8) :=
    fun r t h => congrArg Host.Outcome.next (State.busWrite_command_of_taken htaken h 0x22#8)
  have hstop : ∀ r t, u.cmdFillStop = (r, t) → exec (.fillStop b arg) s = .next (t.answered r 0x23#8) :=
    fun r t h => congrArg Host.Outcome.next (State.busWrite_command_of_taken htaken h 0x23#8)
  have hwork : u.masterWork first last = true ↔ work ∨ owed := by
    simp only [State.masterWork, Bool.or_eq_true, MergeBuffer.rangeBusy_iff, State.portReadIn_iff, List.any_eq_true,
      inRange_iff]
    simp only [work, owed, within, portRead, or_assoc]
  refine ⟨fun hnot => hstart _ _ (State.cmdFillStart_of_not_ready hnot), fun hst hrange => ?_, fun hst hrange hw => ?_,
    fun hst hrange hw ho => ?_, ?_⟩
  · exact hstart _ _ ((State.cmdFillStart_of_ready hst).trans (if_pos (State.fillRange_iff.2 hrange)))
  · refine hstart _ _ ((State.cmdFillStart_of_ready hst).trans ?_)
    rw [if_neg (fun h => State.fillRange_iff.1 h hrange), if_pos (hwork.2 hw)]
  · have hno : ¬ u.masterWork first last = true := fun h => (hwork.1 h).elim hw ho
    exact hstart _ _ ((State.cmdFillStart_of_ready hst).trans
      ((if_neg (fun h => State.fillRange_iff.1 h hrange)).trans (if_neg hno)))
  · split
    all_goals
      rename_i hst
      exact hstop _ _ (by simp only [State.cmdFillStop, hst] <;> rfl)

end Sys2Proof.Machine
end

section
/-! REGISTER_WRITE (R189, R190): the registers as one list, in which a write of a register with no behaviour of its own
replaces one value. -/

namespace Sys2Proof.Machine

variable {s t u : State} {b : Bus} {off : BitVec 7} {v m : Reg16}

/-! ### The registers as a list -/

/-- What the registers read, in the order of `namedOffsets`. -/
def State.registers (s : State) : List Reg16 :=
  [0x4A58#16, s.ctrlStatus, s.commandResult, s.cfg.memsize.setWidth 16, s.cfg.prescale,
   BitVec.ofNat 16 (s.cfg.lwm.toNat + 256 * s.cfg.hwm.toNat), BitVec.ofNat 16 s.cfg.protect.toNat,
   BitVec.ofNat 16 s.cfg.logging.toNat, s.ppt.reqOp, s.ppt.reqAddr.extractLsb' 0 16,
   (s.ppt.reqAddr.extractLsb' 16 6).setWidth 16, wordLo s.ppt.reqOpA, wordHi s.ppt.reqOpA, wordLo s.ppt.reqOpB,
   wordHi s.ppt.reqOpB, BitVec.ofNat 16 s.ppt.submitStatus.code, s.queueLevels, s.cplHead, wordLo s.ppt.cplData,
   wordHi s.ppt.cplData, s.acu.rgnFirst.setWidth 16, s.acu.rgnLast.setWidth 16, s.acu.rgnRights,
   s.acu.viewFirst.setWidth 16, s.acu.viewLast.setWidth 16, s.acu.viewRights, s.mbSummary, s.mb.view.state,
   addrLo s.mb.view.addr, addrHi s.mb.view.addr, wordLo s.mb.view.data, wordHi s.mb.view.data, s.sp0.statusLo,
   s.sp0.statusHi, s.sp0.config, s.sp1.statusLo, s.sp1.statusHi, s.sp1.config, s.sce.status, s.sce.regInterval,
   s.sce.passes, addrLo s.sce.pointer, addrHi s.sce.pointer, addrLo s.sce.regFillFirst, addrHi s.sce.regFillFirst,
   addrLo s.sce.regFillLast, addrHi s.sce.regFillLast, wordLo s.sce.regFillPattern, wordHi s.sce.regFillPattern,
   s.elog.status, s.elog.view.seq, s.elog.view.kind, s.elog.view.detail, addrLo s.elog.view.addr,
   addrHi s.elog.view.addr, s.elog.cntCorrected, s.elog.cntUncorrectable, s.irqPending, s.irq.enable]

/-- The list is what a read of the window returns at each named offset. -/
theorem State.registers_eq (s : State) : s.registers = namedOffsets.map fun k => s.regRead (BitVec.ofNat 7 k) := rfl

theorem namedOffsets_nodup : namedOffsets.Nodup := by decide

theorem State.regRead_eq_of_named (h : off.toNat ∈ namedOffsets) :
    s.registers[namedOffsets.idxOf off.toNat]? = some (s.regRead off) := by
  rw [State.registers_eq, List.getElem?_map, List.getElem?_idxOf h]
  simp

/-- A change of one value of the list is a change of one register. -/
theorem State.regRead_of_set {value : Reg16} (hoff : off.toNat ∈ namedOffsets)
    (h : t.registers = s.registers.set (namedOffsets.idxOf off.toNat) value) :
    t.regRead off = value ∧ ∀ other, other ≠ off → t.regRead other = s.regRead other := by
  have hlen : ∀ u : State, u.registers.length = namedOffsets.length := fun u => by simp [State.registers_eq]
  refine ⟨?_, fun other hne => ?_⟩
  · have hread := State.regRead_eq_of_named (s := t) hoff
    rw [h, List.getElem?_set_self (by rw [hlen]; exact List.idxOf_lt_length_of_mem hoff)] at hread
    exact (Option.some.inj hread).symm
  · by_cases hother : other.toNat ∈ namedOffsets
    · have hidx : namedOffsets.idxOf off.toNat ≠ namedOffsets.idxOf other.toNat := fun hidx =>
        hne (BitVec.eq_of_toNat_eq ((List.idxOf_inj hoff).1 hidx).symm)
      have hread := State.regRead_eq_of_named (s := t) hother
      rw [h, List.getElem?_set_ne hidx, State.regRead_eq_of_named hother] at hread
      exact (Option.some.inj hread).symm
    · rw [State.regRead_of_unnamed hother, State.regRead_of_unnamed hother]

/-! ### The halves of a quantity (R190) -/

theorem wordLo_setWordLo (w : Word) (v : Reg16) : wordLo (setWordLo w v) = v := extractLsb'_append_low _ _
theorem wordHi_setWordLo (w : Word) (v : Reg16) : wordHi (setWordLo w v) = wordHi w := extractLsb'_append_high _ _
theorem wordLo_setWordHi (w : Word) (v : Reg16) : wordLo (setWordHi w v) = wordLo w := extractLsb'_append_low _ _
theorem wordHi_setWordHi (w : Word) (v : Reg16) : wordHi (setWordHi w v) = v := extractLsb'_append_high _ _

theorem addrLo_setAddrLo (a : Addr) (v : Reg16) : addrLo (setAddrLo a v) = v := extractLsb'_append_low _ _
theorem addrHi_setAddrLo (a : Addr) (v : Reg16) : addrHi (setAddrLo a v) = addrHi a :=
  congrArg (BitVec.setWidth 16) (extractLsb'_append_high _ _)
theorem addrLo_setAddrHi (a : Addr) (v : Reg16) : addrLo (setAddrHi a v) = addrLo a := extractLsb'_append_low _ _

/-- The low bits of a value, and the mask that keeps them. -/
theorem setWidth_extractLsb'_low {n : Nat} (v : Reg16) :
    (v.extractLsb' 0 n).setWidth 16 = v &&& BitVec.ofNat 16 (2 ^ n - 1) := by
  refine BitVec.eq_of_getLsbD_eq fun i hi => ?_
  rw [BitVec.getLsbD_and, BitVec.getLsbD_setWidth, BitVec.getLsbD_extractLsb', BitVec.getLsbD_ofNat,
    Nat.testBit_two_pow_sub_one]
  by_cases h : i < n <;> simp [h, hi]

theorem addrHi_setAddrHi (a : Addr) (v : Reg16) : addrHi (setAddrHi a v) = v &&& 0x000F#16 :=
  (congrArg (BitVec.setWidth 16) (extractLsb'_append_high _ _)).trans (setWidth_extractLsb'_low v)

theorem byteAddrLo_setByteAddrLo (a : ByteAddr) (v : Reg16) : (setByteAddrLo a v).extractLsb' 0 16 = v :=
  extractLsb'_append_low _ _
theorem byteAddrHi_setByteAddrLo (a : ByteAddr) (v : Reg16) :
    (setByteAddrLo a v).extractLsb' 16 6 = a.extractLsb' 16 6 := extractLsb'_append_high _ _
theorem byteAddrLo_setByteAddrHi (a : ByteAddr) (v : Reg16) :
    (setByteAddrHi a v).extractLsb' 0 16 = a.extractLsb' 0 16 := extractLsb'_append_low _ _
theorem byteAddrHi_setByteAddrHi (a : ByteAddr) (v : Reg16) :
    ((setByteAddrHi a v).extractLsb' 16 6).setWidth 16 = v &&& 0x003F#16 :=
  (congrArg (BitVec.setWidth 16) (extractLsb'_append_high _ _)).trans (setWidth_extractLsb'_low v)

theorem and_allOnes_sixteen (v : Reg16) : v &&& 0xFFFF#16 = v := BitVec.and_allOnes

theorem ofNat_getLsbD_zero (v : Reg16) : BitVec.ofNat 16 (v.getLsbD 0).toNat = v &&& 0x0001#16 := by
  refine BitVec.eq_of_getLsbD_eq fun i hi => ?_
  rw [ofNat_toNat_flag, BitVec.getLsbD_and]
  interval_cases i <;> cases h : v.getLsbD 0 <;> simp_all

/-- SPn_CONFIG as written (R136). -/
theorem config_written (v : Reg16) :
    BitVec.ofNat 16 ((v.extractLsb' 0 8).toNat + 256 * (v.getLsbD 8).toNat) = v &&& 0x01FF#16 := by
  have hbit : (v.getLsbD 8).toNat = v.toNat / 256 % 2 := by
    rw [← BitVec.testBit_toNat, Nat.toNat_testBit]
  have hmask : v.toNat &&& (2 ^ 9 - 1) = v.toNat % 2 ^ 9 := Nat.and_two_pow_sub_one_eq_mod _ _
  refine BitVec.eq_of_toNat_eq ?_
  rw [BitVec.toNat_and, BitVec.toNat_ofNat, hbit, BitVec.extractLsb'_toNat]
  simp only [Nat.shiftRight_zero, BitVec.toNat_ofNat, Nat.reducePow, Nat.reduceMod, Nat.reduceSub] at hmask ⊢
  omega

/-! ### The writes (R112, R136, R158, R181, R186, R189) -/

/-- The RW registers with no behaviour of their own, with their stored bits (Tables 10-3, 10-5 and 10-7). -/
def rwMasks : List (BitVec 7 × Reg16) :=
  [(0x0C#7, 0x0001#16), (0x10#7, 0x0F3F#16), (0x11#7, 0xFFFF#16), (0x12#7, 0x003F#16), (0x13#7, 0xFFFF#16),
   (0x14#7, 0xFFFF#16), (0x15#7, 0xFFFF#16), (0x16#7, 0xFFFF#16), (0x20#7, 0x3FFF#16), (0x21#7, 0x3FFF#16),
   (0x22#7, 0x8777#16), (0x32#7, 0x01FF#16), (0x36#7, 0x01FF#16), (0x39#7, 0xFFFF#16), (0x40#7, 0xFFFF#16),
   (0x41#7, 0x000F#16), (0x42#7, 0xFFFF#16), (0x43#7, 0x000F#16), (0x44#7, 0xFFFF#16), (0x45#7, 0xFFFF#16),
   (0x51#7, 0x0F3F#16)]

/-- Nothing but the fields of those registers has changed. -/
def RwFrame (u t : State) : Prop :=
  t =
    { u with
      cfg := { u.cfg with logging := t.cfg.logging }
      ppt := { u.ppt with
        reqOp := t.ppt.reqOp, reqAddr := t.ppt.reqAddr, reqOpA := t.ppt.reqOpA, reqOpB := t.ppt.reqOpB }
      acu := { u.acu with rgnFirst := t.acu.rgnFirst, rgnLast := t.acu.rgnLast, rgnRights := t.acu.rgnRights }
      sp0 := { u.sp0 with beatTimeout := t.sp0.beatTimeout, suspendOnFault := t.sp0.suspendOnFault }
      sp1 := { u.sp1 with beatTimeout := t.sp1.beatTimeout, suspendOnFault := t.sp1.suspendOnFault }
      sce := { u.sce with
        regInterval := t.sce.regInterval, regFillFirst := t.sce.regFillFirst, regFillLast := t.sce.regFillLast
        regFillPattern := t.sce.regFillPattern }
      irq := { u.irq with enable := t.irq.enable } }

/-- The write of an RW register replaces its value in the list. -/
def Replaces (u : State) (v : Reg16) (x : BitVec 7 × Reg16) : Prop :=
  (State.regWrite x.1 v u).registers = u.registers.set (namedOffsets.idxOf x.1.toNat) (v &&& x.2)

section
variable (u : State) (v : Reg16)

theorem registers_setReqAddr (a : ByteAddr) :
    (u.setPpt { u.ppt with reqAddr := a }).registers =
      (u.registers.set 9 (a.extractLsb' 0 16)).set 10 ((a.extractLsb' 16 6).setWidth 16) := rfl

theorem registers_setReqOpA (w : Word) :
    (u.setPpt { u.ppt with reqOpA := w }).registers = (u.registers.set 11 (wordLo w)).set 12 (wordHi w) := rfl

theorem registers_setReqOpB (w : Word) :
    (u.setPpt { u.ppt with reqOpB := w }).registers = (u.registers.set 13 (wordLo w)).set 14 (wordHi w) := rfl

theorem registers_setFillFirst (a : Addr) :
    (u.setSce { u.sce with regFillFirst := a }).registers = (u.registers.set 43 (addrLo a)).set 44 (addrHi a) := rfl

theorem registers_setFillLast (a : Addr) :
    (u.setSce { u.sce with regFillLast := a }).registers = (u.registers.set 45 (addrLo a)).set 46 (addrHi a) := rfl

theorem registers_setFillPattern (w : Word) :
    (u.setSce { u.sce with regFillPattern := w }).registers = (u.registers.set 47 (wordLo w)).set 48 (wordHi w) := rfl

theorem replaces_logging : Replaces u v (0x0C#7, 0x0001#16) := by
  show _ = u.registers.set 7 (v &&& 0x0001#16)
  rw [← ofNat_getLsbD_zero]
  rfl

theorem replaces_reqAddr : Replaces u v (0x11#7, 0xFFFF#16) ∧ Replaces u v (0x12#7, 0x003F#16) := by
  refine ⟨(registers_setReqAddr u _).trans ?_, (registers_setReqAddr u _).trans ?_⟩
  · rw [byteAddrLo_setByteAddrLo, byteAddrHi_setByteAddrLo, and_allOnes_sixteen]
    rfl
  · rw [byteAddrLo_setByteAddrHi, byteAddrHi_setByteAddrHi]
    rfl

theorem replaces_reqOpA : Replaces u v (0x13#7, 0xFFFF#16) ∧ Replaces u v (0x14#7, 0xFFFF#16) := by
  refine ⟨(registers_setReqOpA u _).trans ?_, (registers_setReqOpA u _).trans ?_⟩
  · rw [wordLo_setWordLo, wordHi_setWordLo, and_allOnes_sixteen]
    rfl
  · rw [wordLo_setWordHi, wordHi_setWordHi, and_allOnes_sixteen]
    rfl

theorem replaces_reqOpB : Replaces u v (0x15#7, 0xFFFF#16) ∧ Replaces u v (0x16#7, 0xFFFF#16) := by
  refine ⟨(registers_setReqOpB u _).trans ?_, (registers_setReqOpB u _).trans ?_⟩
  · rw [wordLo_setWordLo, wordHi_setWordLo, and_allOnes_sixteen]
    rfl
  · rw [wordLo_setWordHi, wordHi_setWordHi, and_allOnes_sixteen]
    rfl

theorem replaces_regions : Replaces u v (0x20#7, 0x3FFF#16) ∧ Replaces u v (0x21#7, 0x3FFF#16) := by
  have hlow : (v.extractLsb' 0 14).setWidth 16 = v &&& 0x3FFF#16 := setWidth_extractLsb'_low v
  constructor
  · show _ = u.registers.set 20 (v &&& 0x3FFF#16)
    rw [← hlow]
    rfl
  · show _ = u.registers.set 21 (v &&& 0x3FFF#16)
    rw [← hlow]
    rfl

theorem replaces_spConfig : Replaces u v (0x32#7, 0x01FF#16) ∧ Replaces u v (0x36#7, 0x01FF#16) := by
  constructor
  · show _ = u.registers.set 34 (v &&& 0x01FF#16)
    rw [← config_written]
    rfl
  · show _ = u.registers.set 37 (v &&& 0x01FF#16)
    rw [← config_written]
    rfl

theorem replaces_interval : Replaces u v (0x39#7, 0xFFFF#16) := by
  show _ = u.registers.set 39 (v &&& 0xFFFF#16)
  rw [and_allOnes_sixteen]
  rfl

theorem replaces_fillFirst : Replaces u v (0x40#7, 0xFFFF#16) ∧ Replaces u v (0x41#7, 0x000F#16) := by
  refine ⟨(registers_setFillFirst u _).trans ?_, (registers_setFillFirst u _).trans ?_⟩
  · rw [addrLo_setAddrLo, addrHi_setAddrLo, and_allOnes_sixteen]
    rfl
  · rw [addrLo_setAddrHi, addrHi_setAddrHi]
    rfl

theorem replaces_fillLast : Replaces u v (0x42#7, 0xFFFF#16) ∧ Replaces u v (0x43#7, 0x000F#16) := by
  refine ⟨(registers_setFillLast u _).trans ?_, (registers_setFillLast u _).trans ?_⟩
  · rw [addrLo_setAddrLo, addrHi_setAddrLo, and_allOnes_sixteen]
    rfl
  · rw [addrLo_setAddrHi, addrHi_setAddrHi]
    rfl

theorem replaces_fillPattern : Replaces u v (0x44#7, 0xFFFF#16) ∧ Replaces u v (0x45#7, 0xFFFF#16) := by
  refine ⟨(registers_setFillPattern u _).trans ?_, (registers_setFillPattern u _).trans ?_⟩
  · rw [wordLo_setWordLo, wordHi_setWordLo, and_allOnes_sixteen]
    rfl
  · rw [wordLo_setWordHi, wordHi_setWordHi, and_allOnes_sixteen]
    rfl

/-- Every RW register reads back its stored bits. -/
theorem replaces_of_rw : ∀ x ∈ rwMasks, Replaces u v x := by
  simp only [rwMasks, List.forall_mem_cons]
  exact ⟨replaces_logging u v, rfl, (replaces_reqAddr u v).1, (replaces_reqAddr u v).2, (replaces_reqOpA u v).1,
    (replaces_reqOpA u v).2, (replaces_reqOpB u v).1, (replaces_reqOpB u v).2, (replaces_regions u v).1,
    (replaces_regions u v).2, rfl, (replaces_spConfig u v).1, (replaces_spConfig u v).2, replaces_interval u v,
    (replaces_fillFirst u v).1, (replaces_fillFirst u v).2, (replaces_fillLast u v).1, (replaces_fillLast u v).2,
    (replaces_fillPattern u v).1, (replaces_fillPattern u v).2, rfl, nofun⟩

/-- It changes no other field. -/
theorem rwFrame_of_rw : ∀ x ∈ rwMasks, RwFrame u (State.regWrite x.1 v u) := by
  intro x hx
  simp only [rwMasks, List.mem_cons, List.not_mem_nil, or_false] at hx
  rcases hx with rfl | rfl | rfl | rfl | rfl | rfl | rfl | rfl | rfl | rfl | rfl | rfl | rfl | rfl | rfl | rfl | rfl | rfl |
    rfl | rfl | rfl
  all_goals rfl

theorem rwMasks_named : ∀ x ∈ rwMasks, x.1.toNat ∈ namedOffsets := by
  simp [rwMasks, namedOffsets]

/-- The write of any other register with no behaviour of its own is ignored. -/
theorem State.regWrite_ignored {off : BitVec 7} (hown : off ∉ ownBehaviourOffsets) (hrw : ∀ m, (off, m) ∉ rwMasks) :
    State.regWrite off v u = u := by
  have hnot : off ∉ ownBehaviourOffsets ++ rwMasks.map (·.1) := by
    simp only [List.mem_append, List.mem_map, not_or]
    refine ⟨hown, ?_⟩
    rintro ⟨⟨k, m⟩, hm, rfl⟩
    exact hrw m hm
  have hoff : off = BitVec.ofNat 7 off.toNat := by simp
  unfold State.regWrite
  split
  case h_29 => rfl
  all_goals
    rename_i hk
    rw [hk] at hoff
    exact absurd (hoff ▸ by decide) hnot

end

/-- Settles O15: the register's value in the list of all, by the table of stored bits. -/
theorem registerWriteReadsBack : Obligations.RegisterWriteReadsBack := by
  unfold Obligations.RegisterWriteReadsBack
  intro s b off v htaken hown u rw
  refine ⟨_, congrArg Host.Outcome.next (State.busWrite_of_taken htaken (State.regWrite off v)), ?_⟩
  by_cases hrw : ∃ m, (off, m) ∈ rwMasks
  · obtain ⟨m, hm⟩ := hrw
    have hset := fun m (hm : (off, m) ∈ rwMasks) =>
      State.regRead_of_set (rwMasks_named _ hm) (replaces_of_rw u v _ hm)
    exact ⟨fun m hm => (hset m hm).1, (hset m hm).2, rwFrame_of_rw u v _ hm, fun hno => absurd hm (hno m)⟩
  · have hnone : ∀ m, (off, m) ∉ rwMasks := fun m hm => hrw ⟨m, hm⟩
    have hsame : State.regWrite off v u = u := State.regWrite_ignored u v hown hnone
    show _ ∧ _ ∧ RwFrame u (State.regWrite off v u) ∧ _
    rw [show s.eventStartBy b.together = u from rfl, hsame]
    exact ⟨fun m hm => absurd hm (hnone m), fun _ _ => rfl, rfl, fun _ => rfl⟩

end Sys2Proof.Machine
end

section
/-! The rows the part itself brings about when a hold ends, a waiting writer is served, a forced drain is signalled, a FLUSH
or a quiesce completes (R21, R26, R46, R59, R64, R105, R168). -/

namespace Sys2Proof.Machine

variable {s t u : State}

/-! ### Events that no waiting writer puts off (log 3) -/

/-- The end of quiesce is due under its condition alone. -/
theorem State.internal_quiesce (hr : s.resetAsserted = false) (h : s.quiesceReady = true) :
    s.internal .quiesce = s.quiesceComplete :=
  State.internal_of_due (by simp [State.due, hr, h, mem_oneIf])

/-- A hold release by a lock's removal is due under its condition alone. -/
theorem State.internal_lockRelease {q : Port} (hr : s.resetAsserted = false) (h : s.lockReleasable q = true) :
    s.internal (.lockRelease q) = s.lockRelease q := by
  cases hw : s.nextWaiter with
  | none => exact State.internal_of_due (State.due_of_dueCondition hr hw nofun h)
  | some m =>
    refine State.internal_of_due ?_
    simp only [State.due, hr, State.dueWork, hw]
    cases q <;> simp [mem_oneIf, h]

/-- A waiting writer that can be served is served. -/
theorem State.internal_waiterAlloc (hr : s.resetAsserted = false) (h : s.nextWaiter.isSome = true) :
    s.internal .waiterAlloc = s.allocateWaiter :=
  State.internal_of_due (by simp [State.due, State.dueWork, hr, h])

/-! ### FLUSH_COMPLETION and QUIESCE_COMPLETE (R46, R105) -/

theorem State.flushReady_iff :
    s.flushReady = true ↔ (∃ x, s.ppt.exec = some x ∧ x.phase = .flushing) ∧ ∀ e, (s.mb.entry e).flushBound = false := by
  unfold State.flushReady
  rw [Bool.and_eq_true, Bool.not_eq_true', MergeBuffer.anyEntry_eq_false]
  cases h : s.ppt.exec <;> simp

theorem State.quiesceReady_iff : s.quiesceReady = true ↔ s.ctl.state = .quiescing ∧ QuiesceHolds s := by
  simp [State.quiesceReady, State.quiesced_iff]

/-- Settles O42: a row whose condition fails changes nothing; else the completion's equation. -/
theorem flushAndQuiesceComplete : Obligations.FlushAndQuiesceComplete := by
  unfold Obligations.FlushAndQuiesceComplete
  refine ⟨fun s => ⟨fun h => ?_, fun h => ?_⟩, fun s x hready hx hph hbound => ?_, fun s hr hst hq => ?_⟩
  · refine congrArg Host.Outcome.next (State.internal_of_not_condition (d := .flushDone) ?_)
    refine Bool.eq_false_iff.2 fun hc => ?_
    obtain ⟨⟨x, hx, hph⟩, hbound⟩ := State.flushReady_iff.1 hc
    rcases h with ⟨e, he⟩ | h
    · simp [hbound e] at he
    · exact h x hx hph
  · refine congrArg Host.Outcome.next (State.internal_of_not_condition (d := .quiesce) ?_)
    refine Bool.eq_false_iff.2 fun hc => ?_
    obtain ⟨hst, hq⟩ := State.quiesceReady_iff.1 hc
    exact h.elim (· hst) (· hq)
  · have hfire := State.internal_of_ready (d := .flushDone) hready (by decide) (State.flushReady_iff.2 ⟨⟨x, hx, hph⟩, hbound⟩)
    refine congrArg Host.Outcome.next (hfire.trans ?_)
    exact State.ppComplete_some (s := s.setMb { s.mb with faultedCount := 0 }) hx _ _
  · exact congrArg Host.Outcome.next (State.internal_quiesce hr (State.quiesceReady_iff.2 ⟨hst, hq⟩))

/-! ### WAITING_WRITER_ALLOCATION (R26) -/

theorem MergeBuffer.entryFor_isSome_iff {mb : MergeBuffer} {w : Addr} :
    (mb.entryFor w).isSome = true ↔ ∃ e, (mb.entry e).state ≠ .free ∧ (mb.entry e).addr = w := by
  rw [MergeBuffer.entryFor, List.find?_isSome]
  simp [Entry.holds, Entry.active, mem_entryIds]

theorem MergeBuffer.firstFree_isSome_iff {mb : MergeBuffer} :
    mb.firstFree.isSome = true ↔ ∃ e, (mb.entry e).state = .free := by
  rw [MergeBuffer.firstFree, List.find?_isSome]
  simp [mem_entryIds]

theorem State.servable_iff {m : MergeWrite} :
    s.servable m = true ↔
      s.locked m.addr = false ∧
      ∃ e, (s.mb.entry e).state = .free ∨ (s.mb.entry e).state ≠ .free ∧ (s.mb.entry e).addr = m.addr := by
  rw [State.servable, Bool.and_eq_true, Bool.not_eq_true', Bool.or_eq_true, MergeBuffer.entryFor_isSome_iff,
    MergeBuffer.firstFree_isSome_iff, exists_or]
  exact and_congr_right fun _ => Or.comm

/-- The first that passes a test, by its place. -/
theorem find?_of_split {α : Type} {test : α → Bool} {l older younger : List α} {x : α} (h : l = older ++ x :: younger)
    (ho : ∀ y ∈ older, test y = false) (hx : test x = true) : l.find? test = some x := by
  rw [h, List.find?_append, List.find?_cons, hx]
  have hnone : older.find? test = none := List.find?_eq_none.2 fun y hy => by simp [ho y hy]
  simp [hnone]

/-- Leaving a list of merge writes in which no other is of the port. -/
theorem filter_port_of_split {l older younger : List MergeWrite} {m : MergeWrite} (h : l = older ++ m :: younger)
    (ho : ∀ x ∈ older, x.port ≠ m.port) (hy : ∀ x ∈ younger, x.port ≠ m.port) :
    l.filter (·.port != m.port) = older ++ younger := by
  rw [h, List.filter_append, List.filter_cons, List.filter_eq_self.2 fun x hx => by simpa using ho x hx,
    List.filter_eq_self.2 fun x hx => by simpa using hy x hx]
  simp

/-! ### FORCED_DRAIN_SIGNAL (R59) -/

/-- The lock entry in WAIT_DRAIN whose forced entry is gone, by its place. -/
theorem State.signalled_of_split {older younger : List LockEntry} {e : LockEntry} (h : s.wlt = older ++ e :: younger)
    (hst : e.state = .waitDrain) (ho : ∀ x ∈ older, x.state = .waitDrain → ∃ i, s.mbAsk x.addr = .forced i)
    (hask : s.mbAsk e.addr = .none ∨ s.mbAsk e.addr = .faulted) : s.signalled = some e := by
  refine find?_of_split h (fun x hx => ?_) ?_
  · by_cases hw : x.state = .waitDrain
    · obtain ⟨i, hi⟩ := ho x hx hw
      simp [hi]
    · simp [hw]
  · rcases hask with hask | hask <;> simp [hst, hask]

theorem State.forcedSignal_of_none {e : LockEntry} (h : s.signalled = some e) (hask : s.mbAsk e.addr = .none) :
    s.forcedSignal = (s.setLockState e.port .waitGrant).aeUpdate := by
  simp [State.forcedSignal, h, hask]

theorem State.forcedSignal_of_faulted {e : LockEntry} (h : s.signalled = some e) (hask : s.mbAsk e.addr = .faulted) :
    s.forcedSignal = s.removeLock e (some .faulted) := by
  simp [State.forcedSignal, h, hask]

/-- Settles O41: the waiter found and its merge write; the signalled entry by the buffer's answer. -/
theorem waitersAndSignals : Obligations.WaitersAndSignals := by
  unfold Obligations.WaitersAndSignals
  refine ⟨fun s older younger m hr hw ho => ?_, fun s older younger e hready hwlt hst => ?_⟩
  · intro servable hm holder hyounger
    have hnext : s.nextWaiter = some m := find?_of_split hw
      (fun x hx => Bool.eq_false_iff.2 fun h => holder x hx (State.servable_iff.1 h)) (State.servable_iff.2 hm)
    refine congrArg Host.Outcome.next ((State.internal_waiterAlloc hr (by rw [hnext]; rfl)).trans ?_)
    simp only [State.allocateWaiter, hnext, filter_port_of_split hw ho hyounger]
    rfl
  · intro gone hforced
    have hfire : ∀ hsig : s.signalled = some e, s.internal .forcedSignal = s.forcedSignal := fun hsig =>
      State.internal_of_ready (d := .forcedSignal) hready (by decide) (by simp [State.dueCondition, hsig])
    refine ⟨fun hgone => ?_, fun hask => ?_⟩
    · have hask : s.mbAsk e.addr = .none := (lockAnswers s e.addr).1 fun i =>
        (em ((s.mb.entry i).state = .free)).imp_right (hgone i)
      have hsig := State.signalled_of_split hwlt hst hforced (.inl hask)
      refine ⟨_, congrArg Host.Outcome.next ((hfire hsig).trans (State.forcedSignal_of_none hsig hask)), ?_, ?_, ?_⟩
      · exact (s.setWlt_sameBut _).then (State.aeUpdate_follows _).2 (by simp) (by simp)
      · rw [State.aeUpdate_wlt]
        rfl
      · exact State.aeUpdate_follows_of rfl rfl
    · have hsig := State.signalled_of_split hwlt hst hforced (.inr hask)
      exact congrArg Host.Outcome.next ((hfire hsig).trans (State.forcedSignal_of_faulted hsig hask))

/-! ### What holds (R54, R64, R168) -/

theorem State.fenced_iff {w : Addr} :
    s.fenced w = true ↔
      (s.sce.state = .fillRequest ∨ s.sce.state = .fillAccess) ∧ s.sce.fillPtr.toNat ≤ w.toNat ∧
      w.toNat ≤ s.sce.fillLast.toNat := by
  rw [State.fenced, Bool.and_eq_true, inRange_iff]
  cases s.sce.state <;> simp [ScrubState.fillMode]

/-- No merge write of the port is held, or its word is still locked. -/
theorem State.releasableMerge_of_locked {q : Port} (h : ∀ m ∈ s.mb.held, m.port = q → s.locked m.addr = true) :
    s.releasableMerge q = none := by
  unfold State.releasableMerge
  cases hf : s.mb.held.find? (·.port == q) with
  | none => rfl
  | some m =>
    have hm := h m (List.mem_of_find?_eq_some hf) (by simpa using List.find?_some hf)
    simp [hm]

theorem State.releasableMerge_of_split {older younger : List MergeWrite} {m : MergeWrite}
    (h : s.mb.held = older ++ m :: younger) (ho : ∀ x ∈ older, x.port ≠ m.port) (hm : s.locked m.addr = false) :
    s.releasableMerge m.port = some m := by
  have hf : s.mb.held.find? (·.port == m.port) = some m :=
    find?_of_split h (fun x hx => by simpa using ho x hx) (by simp)
  simp [State.releasableMerge, hf, hm]

theorem State.ppLockReleasable_iff :
    s.ppLockReleasable = true ↔
      ∃ x, s.ppt.exec = some x ∧
        (x.phase = .lockReleased ∨ x.phase = .lockHold ∧ s.locked (wordOf x.req.addr) = false) ∧
        ((∃ op, x.req.op = .atomic op) → s.hasLock .pp = false) := by
  unfold State.ppLockReleasable
  cases s.ppt.exec with
  | none => simp
  | some x => cases hop : x.req.op <;> simp [PpRequest.atomicOn, hop]

theorem State.spLockReleasable_iff {p : SpId} :
    s.spLockReleasable p = true ↔ ∃ b, (s.sp p).burst = some b ∧ b.hold = .lock ∧ s.locked b.word = false := by
  unfold State.spLockReleasable
  cases (s.sp p).burst <;> simp

theorem State.ppFenceReleasable_iff :
    s.ppFenceReleasable = true ↔
      ∃ x, s.ppt.exec = some x ∧ x.phase = .fenceHold ∧ s.fenced (wordOf x.req.addr) = false := by
  unfold State.ppFenceReleasable
  cases s.ppt.exec <;> simp

theorem State.spFenceReleasable_iff {p : SpId} :
    s.spFenceReleasable p = true ↔ ∃ b, (s.sp p).burst = some b ∧ b.hold = .fence ∧ s.fenced b.word = false := by
  unfold State.spFenceReleasable
  cases (s.sp p).burst <;> simp

theorem State.lockReleasable_pp (h : s.releasableMerge .pp = none) : s.lockReleasable .pp = s.ppLockReleasable := by
  simp [State.lockReleasable, h, streamOf]

theorem State.lockReleasable_port {p : SpId} (h : s.releasableMerge p.port = none) :
    s.lockReleasable p.port = s.spLockReleasable p := by
  simp [State.lockReleasable, h]

theorem State.fenceReleasable_port (s : State) (p : SpId) : s.fenceReleasable p.port = s.spFenceReleasable p := by
  simp [State.fenceReleasable]

theorem State.fenceRelease_port (s : State) (p : SpId) : s.fenceRelease p.port = s.spRelease p := by
  simp [State.fenceRelease]

theorem State.lockRelease_merge {q : Port} {m : MergeWrite} (h : s.releasableMerge q = some m) :
    s.lockRelease q = (s.setMb { s.mb with held := s.mb.held.filter (·.port != q) }).mergeIssue m := by
  simp [State.lockRelease, h]

theorem State.lockRelease_pp (h : s.releasableMerge .pp = none) : s.lockRelease .pp = s.ppLockRelease := by
  simp [State.lockRelease, h, streamOf]

theorem State.lockRelease_port {p : SpId} (h : s.releasableMerge p.port = none) :
    s.lockRelease p.port = s.spRelease p := by
  simp [State.lockRelease, h]

/-! ### How a held request goes on (R64, R168) -/

section
variable {p : SpId} {b : Burst}

theorem State.spRelease_readHold (hb : (s.sp p).burst = some b) (hph : b.phase = .readHold) :
    s.spRelease p = s.readOn p := by simp [State.spRelease, hb, hph]

theorem State.spRelease_admitHold (hb : (s.sp p).burst = some b) (hph : b.phase = .admitHold) :
    s.spRelease p = s.admitAtomic p := by simp [State.spRelease, hb, hph]

theorem State.spRelease_merge (hb : (s.sp p).burst = some b) (hph : b.phase = .merge) {d : Word} {m : LaneMask}
    (hbeat : b.beat = some (d, m)) :
    s.spRelease p =
      (s.setSp p { s.sp p with burst := some { b with hold := .none, beat := none } }).mergeIssue
        { port := p.port, addr := b.word, data := d, mask := m } := by
  simp [State.spRelease, hb, hph, State.issueHeldBeat, hbeat, State.setBurst, Burst.mergeWrite]

end

section
variable {x : PpExec}

theorem State.ppLockRelease_read (hx : s.ppt.exec = some x) (hop : x.req.op = .read) :
    s.ppLockRelease = s.ppLockStep x.req := by simp [State.ppLockRelease, hx, hop]

theorem State.ppLockRelease_atomic {op : AtomicOp} (hx : s.ppt.exec = some x) (hop : x.req.op = .atomic op) :
    s.ppLockRelease = (s.setPpPhase .locked).createLock (x.req.lockEntry op) := by
  simp [State.ppLockRelease, hx, hop]

theorem State.ppLockStep_atomic {r : PpRequest} {op : AtomicOp} (hop : r.op = .atomic op)
    (hlock : s.locked (wordOf r.addr) = false) (hpp : s.hasLock .pp = false) :
    s.ppLockStep r = (s.setPpPhase .locked).createLock (r.lockEntry op) := by
  simp [State.ppLockStep, hop, hlock, hpp]

/-- The hold a processor atomic stands in, in the statement's words. -/
theorem PpRequest.atomicOn_iff {r : PpRequest} {w : Addr} :
    r.atomicOn w = true ↔ (∃ op, r.op = .atomic op) ∧ wordOf r.addr = w := by
  cases hop : r.op <;> simp [PpRequest.atomicOn, hop]

theorem State.releaseHeldAtomic_of_held {w : Addr} (hx : s.ppt.exec = some x) (hph : x.phase = .lockHold)
    (hon : x.req.atomicOn w = true) :
    s.releaseHeldAtomic w = { s with ppt := { s.ppt with exec := some { x with phase := .lockReleased } } } := by
  simp only [State.releaseHeldAtomic, hx, hph, hon, and_self, if_true]
  exact State.setPpPhase_some hx _

theorem State.releaseHeldAtomic_of_not_held {w : Addr} (hx : s.ppt.exec = some x)
    (h : ¬ (x.phase = .lockHold ∧ x.req.atomicOn w = true)) : s.releaseHeldAtomic w = s := by
  simp only [State.releaseHeldAtomic, hx, if_neg h]

end

/-- Settles O40: what holds, what is still held, the released processor atomic, and each release. -/
theorem holdReleases : Obligations.HoldReleases := by
  unfold Obligations.HoldReleases
  refine ⟨fun s => ⟨fun w => by simp [State.locked], fun q => by simp [State.hasLock], fun w => State.fenced_iff⟩,
    fun s => ⟨fun hheld hexec => ?_, fun p hheld hburst => ?_, fun hexec => ?_, fun p hburst => ?_⟩,
    fun s w => ⟨fun hx => ?_, fun x hx => ⟨fun hheld => ?_, fun hnot => ?_⟩⟩,
    fun s hr => ⟨fun older m younger hsplit ho hlock => ?_, fun x hx hheld hlock hph => ⟨fun hop => ?_, fun op hop hpp => ?_⟩,
      fun x op hx hheld hph hop hpp => ?_, fun p b hb hheld hhold hlock => ?_, fun hw => ⟨fun x hx hph hf => ?_,
        fun p b hb hhold hf => ?_⟩⟩⟩
  · refine congrArg Host.Outcome.next (State.internal_of_not_condition (d := .lockRelease .pp) ?_)
    refine (State.lockReleasable_pp (State.releasableMerge_of_locked hheld)).trans (Bool.eq_false_iff.2 fun hc => ?_)
    obtain ⟨x, hx, hph, hlock⟩ := State.ppLockReleasable_iff.1 hc
    rcases hexec x hx with ⟨hne, hlocked⟩ | ⟨hop, hpp⟩
    · rcases hph with hph | ⟨hph, hfree⟩
      · exact hne hph
      · simp [hlocked hph] at hfree
    · simp [hlock hop] at hpp
  · refine congrArg Host.Outcome.next (State.internal_of_not_condition (d := .lockRelease p.port) ?_)
    refine (State.lockReleasable_port (State.releasableMerge_of_locked hheld)).trans (Bool.eq_false_iff.2 fun hc => ?_)
    obtain ⟨b, hb, hhold, hlock⟩ := State.spLockReleasable_iff.1 hc
    rcases hburst b hb with h | h
    · exact h hhold
    · simp [h] at hlock
  · refine congrArg Host.Outcome.next (State.internal_of_not_condition (d := .fenceRelease .pp) ?_)
    refine Bool.eq_false_iff.2 fun hc => ?_
    obtain ⟨x, hx, hph, hf⟩ := State.ppFenceReleasable_iff.1 hc
    rcases hexec x hx with h | h
    · exact h hph
    · simp [h] at hf
  · refine congrArg Host.Outcome.next (State.internal_of_not_condition (d := .fenceRelease p.port) ?_)
    refine (s.fenceReleasable_port p).trans (Bool.eq_false_iff.2 fun hc => ?_)
    obtain ⟨b, hb, hhold, hf⟩ := State.spFenceReleasable_iff.1 hc
    rcases hburst b hb with h | h
    · exact h hhold
    · simp [h] at hf
  · simp [State.releaseHeldAtomic, hx]
  · obtain ⟨hph, hop, hw⟩ := hheld
    exact State.releaseHeldAtomic_of_held hx hph (PpRequest.atomicOn_iff.2 ⟨hop, hw⟩)
  · exact State.releaseHeldAtomic_of_not_held hx fun ⟨hph, hon⟩ => hnot ⟨hph, PpRequest.atomicOn_iff.1 hon⟩
  · have hm := State.releasableMerge_of_split hsplit ho hlock
    exact congrArg Host.Outcome.next
      ((State.internal_lockRelease hr (by simp [State.lockReleasable, hm])).trans (State.lockRelease_merge hm))
  · have hm : s.releasableMerge .pp = none := State.releasableMerge_of_locked fun m hmem hp => absurd hp (hheld m hmem)
    have hrel : s.ppLockReleasable = true :=
      State.ppLockReleasable_iff.2 ⟨x, hx, .inr ⟨hph, hlock⟩, fun ⟨op, hat⟩ => by rw [hop] at hat; cases hat⟩
    exact congrArg Host.Outcome.next ((State.internal_lockRelease hr ((State.lockReleasable_pp hm).trans hrel)).trans
      ((State.lockRelease_pp hm).trans (State.ppLockRelease_read hx hop)))
  · have hm : s.releasableMerge .pp = none := State.releasableMerge_of_locked fun m hmem hp => absurd hp (hheld m hmem)
    have hrel : s.ppLockReleasable = true := State.ppLockReleasable_iff.2 ⟨x, hx, .inr ⟨hph, hlock⟩, fun _ => hpp⟩
    exact congrArg Host.Outcome.next ((State.internal_lockRelease hr ((State.lockReleasable_pp hm).trans hrel)).trans
      ((State.lockRelease_pp hm).trans
        ((State.ppLockRelease_atomic hx hop).trans (State.ppLockStep_atomic hop hlock hpp).symm)))
  · have hm : s.releasableMerge .pp = none := State.releasableMerge_of_locked fun m hmem hp => absurd hp (hheld m hmem)
    have hrel : s.ppLockReleasable = true := State.ppLockReleasable_iff.2 ⟨x, hx, .inl hph, fun _ => hpp⟩
    have hgo := State.ppLockRelease_atomic hx hop
    rw [State.setPpPhase_some hx] at hgo
    exact congrArg Host.Outcome.next ((State.internal_lockRelease hr ((State.lockReleasable_pp hm).trans hrel)).trans
      ((State.lockRelease_pp hm).trans hgo))
  · have hm : s.releasableMerge p.port = none :=
      State.releasableMerge_of_locked fun m hmem hp => absurd hp (hheld m hmem)
    have hgo : s.internal (.lockRelease p.port) = s.spRelease p :=
      (State.internal_lockRelease hr ((State.lockReleasable_port hm).trans
        (State.spLockReleasable_iff.2 ⟨b, hb, hhold, hlock⟩))).trans (State.lockRelease_port hm)
    exact ⟨fun hph => congrArg Host.Outcome.next (hgo.trans (State.spRelease_readHold hb hph)),
      fun hph => congrArg Host.Outcome.next (hgo.trans (State.spRelease_admitHold hb hph))⟩
  · have hgo : s.internal (.fenceRelease .pp) = s.ppFenceRelease :=
      State.internal_of_ready (d := .fenceRelease .pp) ⟨hr, hw⟩ (by decide) (State.ppFenceReleasable_iff.2 ⟨x, hx, hph, hf⟩)
    refine congrArg Host.Outcome.next (hgo.trans ?_)
    simp [State.ppFenceRelease, hx]
  · have hgo : s.internal (.fenceRelease p.port) = s.spRelease p :=
      (State.internal_of_ready (d := .fenceRelease p.port) ⟨hr, hw⟩ nofun
        ((s.fenceReleasable_port p).trans (State.spFenceReleasable_iff.2 ⟨b, hb, hhold, hf⟩))).trans (s.fenceRelease_port p)
    exact ⟨fun hph => congrArg Host.Outcome.next (hgo.trans (State.spRelease_readHold hb hph)),
      fun hph => congrArg Host.Outcome.next (hgo.trans (State.spRelease_admitHold hb hph)),
      fun d m hph hbeat => congrArg Host.Outcome.next (hgo.trans (State.spRelease_merge hb hph hbeat))⟩

end Sys2Proof.Machine
end

section
/-! The drain engine's starts (R34, R35, R44), the disturbance of a stored word and its decode (R7 to R11). -/

namespace Sys2Proof.Machine

variable {s t u : State} {mb : MergeBuffer}

/-! ### Why the drain engine does not start (R34, log 20) -/

theorem MergeBuffer.count_eq (mb : MergeBuffer) (test : Entry → Bool) :
    mb.count test = ((List.finRange 8).filter fun e => test (mb.entry e)).length := rfl

theorem Entry.live_iff {x : Entry} : x.live = true ↔ x.state ≠ .free ∧ x.state ≠ .faulted := by
  cases h : x.state <;> simp [Entry.live, h]

/-- The trigger in the statement's words (R34). -/
theorem State.drainTrigger_iff :
    s.drainTrigger = true ↔
      s.ctl.state ≠ .halted ∧ (∃ f, (s.mb.entry f).state = .pending) ∧
      (s.cfg.lwm.toNat ≤ s.mb.count (fun f => f.state == .pending) ∨ s.cfg.hwm.toNat ≤ s.mb.count Entry.live ∨
       s.mb.waiting ≠ [] ∨ (∃ f, (s.mb.entry f).forced = true) ∨ (∃ f, (s.mb.entry f).flushBound = true) ∨
       s.ctl.state = .quiescing) := by
  simp [State.drainTrigger, MergeBuffer.anyEntry_eq_true, and_assoc, or_assoc]

theorem State.drainReady_iff :
    s.drainReady = true ↔ s.mb.drain.phase = .idle ∧ s.mb.resolveChoice = none ∧ s.drainTrigger = true := by
  simp [State.drainReady, and_assoc]

theorem State.resolveReady_iff : s.resolveReady = true ↔ s.mb.drain.phase = .idle ∧ s.mb.resolveChoice ≠ none := by
  simp [State.resolveReady, Option.isSome_iff_ne_none]

theorem MergeBuffer.resolveChoice_eq_none_iff :
    mb.resolveChoice = none ↔
      ∀ e ∈ mb.age, ¬ ((mb.entry e).state = .faulted ∧ (mb.entry e).resolvePending = true) := by
  rw [MergeBuffer.resolveChoice, MergeBuffer.oldest, List.find?_eq_none]
  simp

/-! ### The choice by rank and age (R35) -/

/-- The oldest entry that passes a test, by its place. -/
theorem MergeBuffer.oldest_of_split {test : Entry → Bool} {older younger : List (Fin 8)} {e : Fin 8}
    (h : mb.age = older ++ e :: younger) (ho : ∀ f ∈ older, test (mb.entry f) = false) (he : test (mb.entry e) = true) :
    mb.oldest test = some e := find?_of_split h ho he

theorem MergeBuffer.oldest_eq_none {test : Entry → Bool} (h : ∀ f ∈ mb.age, test (mb.entry f) = false) :
    mb.oldest test = none := List.find?_eq_none.2 fun f hf => by simp [h f hf]

theorem Entry.rank_of_forced {x : Entry} (h : x.forced = true) : x.rank = 0 := by simp [Entry.rank, h]

theorem Entry.rank_of_flushBound {x : Entry} (hf : x.forced = false) (h : x.flushBound = true) : x.rank = 1 := by
  simp [Entry.rank, hf, h]

theorem Entry.rank_of_neither {x : Entry} (hf : x.forced = false) (h : x.flushBound = false) : x.rank = 2 := by
  simp [Entry.rank, hf, h]

theorem Entry.forced_eq_false_of_rank {x : Entry} (h : 0 < x.rank) : x.forced = false :=
  Bool.eq_false_iff.2 fun hf => by simp [Entry.rank_of_forced hf] at h

theorem Entry.flushBound_eq_false_of_rank {x : Entry} (h : 1 < x.rank) : x.flushBound = false :=
  Bool.eq_false_iff.2 fun hb => by
    have hf : x.forced = false := Entry.forced_eq_false_of_rank (by omega)
    simp [Entry.rank_of_flushBound hf hb] at h

theorem Entry.rank_le (x : Entry) : x.rank ≤ 2 := by
  unfold Entry.rank
  split
  · omega
  · split <;> omega

/-- The best rank first, and the oldest in it. -/
theorem MergeBuffer.drainChoice_of_rank {older younger : List (Fin 8)} {e : Fin 8}
    (h : mb.age = older ++ e :: younger) (he : (mb.entry e).state = .pending)
    (ho : ∀ f ∈ older, (mb.entry f).state = .pending → (mb.entry e).rank < (mb.entry f).rank)
    (hy : ∀ f ∈ younger, (mb.entry f).state = .pending → (mb.entry e).rank ≤ (mb.entry f).rank) :
    mb.drainChoice = some e := by
  have hall : ∀ f ∈ mb.age, (mb.entry f).state = .pending → (mb.entry e).rank ≤ (mb.entry f).rank := fun f hf hp => by
    rw [h, List.mem_append, List.mem_cons] at hf
    rcases hf with hf | rfl | hf
    · exact (ho f hf hp).le
    · exact le_rfl
    · exact hy f hf hp
  unfold MergeBuffer.drainChoice
  cases hforced : (mb.entry e).forced with
  | true =>
    rw [MergeBuffer.oldest_of_split h (fun f hf => ?_) (by simp [he, hforced])]
    · rfl
    · by_cases hp : (mb.entry f).state = .pending
      · have hrank := ho f hf hp
        simp [Entry.forced_eq_false_of_rank (x := mb.entry f) (by omega)]
      · simp [hp]
  | false =>
    have hfirst : mb.oldest (fun x => x.state == .pending && x.forced) = none := MergeBuffer.oldest_eq_none fun f hf => by
      by_cases hp : (mb.entry f).state = .pending
      · have hrank := hall f hf hp
        have hpos : 0 < (mb.entry e).rank := by
          rw [Entry.rank, hforced]
          simp only [Bool.false_eq_true, if_false]
          split <;> omega
        simp [Entry.forced_eq_false_of_rank (x := mb.entry f) (by omega)]
      · simp [hp]
    rw [hfirst, Option.none_or]
    cases hbound : (mb.entry e).flushBound with
    | true =>
      have hone := Entry.rank_of_flushBound hforced hbound
      rw [MergeBuffer.oldest_of_split h (fun f hf => ?_) (by simp [he, hbound])]
      · rfl
      · by_cases hp : (mb.entry f).state = .pending
        · have hrank := ho f hf hp
          simp [Entry.flushBound_eq_false_of_rank (x := mb.entry f) (by omega)]
        · simp [hp]
    | false =>
      have htwo := Entry.rank_of_neither hforced hbound
      have hsecond : mb.oldest (fun x => x.state == .pending && x.flushBound) = none :=
        MergeBuffer.oldest_eq_none fun f hf => by
          by_cases hp : (mb.entry f).state = .pending
          · have hrank := hall f hf hp
            simp [Entry.flushBound_eq_false_of_rank (x := mb.entry f) (by omega)]
          · simp [hp]
      rw [hsecond, Option.none_or]
      refine MergeBuffer.oldest_of_split h (fun f hf => ?_) (by simp [he])
      by_cases hp : (mb.entry f).state = .pending
      · have hrank := ho f hf hp
        have hle := (mb.entry f).rank_le
        omega
      · simp [hp]

/-! ### DRAIN_START and RESOLVE_WRITE_REQUEST (R35, R44) -/

theorem State.drainStart_of_choice {e : Fin 8} (h : s.mb.drainChoice = some e) :
    s.drainStart =
      if (s.mb.entry e).mask = 15#4 then
        (s.setMb { s.mb.setEntry e { s.mb.entry e with selected := true } with
          drain := { phase := .writeWait, entry := some e } }).request .dr .write (s.mb.entry e).addr
      else
        (s.setMb { s.mb.setEntry e { s.mb.entry e with selected := true } with
          drain := { phase := .readWait, entry := some e } }).request .dr .read (s.mb.entry e).addr := by
  simp only [State.drainStart, h]

theorem State.resolveRequest_of_choice {e : Fin 8} (h : s.mb.resolveChoice = some e) :
    s.resolveRequest =
      (s.setMb { s.mb with drain := { phase := .resolveWait, entry := some e } }).request .dr .write
        (s.mb.entry e).addr := by
  simp only [State.resolveRequest, h]

/-- Settles O39: each row's condition, the choice by rank and age, and the two requests. -/
theorem drainEngineStarts : Obligations.DrainEngineStarts := by
  unfold Obligations.DrainEngineStarts
  have hidle : ∀ s : State, ¬ s.drainReady = true → exec .drainStart s = .next s := fun s h =>
    congrArg Host.Outcome.next (State.internal_of_not_condition (d := .drainStart) (Bool.eq_false_iff.2 h))
  refine ⟨MergeBuffer.count_eq, fun x => Entry.live_iff, fun s => ⟨fun h => hidle s fun hc => ?_,
      fun hlwm hhwm hwait hforced hbound hquiet => hidle s fun hc => ?_, fun h => ?_, MergeBuffer.resolveChoice_eq_none_iff⟩,
    fun s e hready hph hres hst hpend htrig hchoice => ?_,
    fun mb older younger e h he ho hy => MergeBuffer.drainChoice_of_rank h he ho hy,
    fun s older younger e hready hph hage hst hpend ho => ?_⟩
  · obtain ⟨hph, hres, htrig⟩ := State.drainReady_iff.1 hc
    obtain ⟨hrun, ⟨f, hf⟩, -⟩ := State.drainTrigger_iff.1 htrig
    rcases h with h | h | h | h
    · exact hrun h
    · exact h hph
    · exact h hres
    · exact h f hf
  · obtain ⟨-, -, htrig⟩ := State.drainReady_iff.1 hc
    obtain ⟨-, -, htrig⟩ := State.drainTrigger_iff.1 htrig
    rcases htrig with h | h | h | ⟨f, h⟩ | ⟨f, h⟩ | h
    · omega
    · omega
    · exact h hwait
    · simp [hforced f] at h
    · simp [hbound f] at h
    · exact hquiet h
  · refine congrArg Host.Outcome.next (State.internal_of_not_condition (d := .resolveRequest) (Bool.eq_false_iff.2 fun hc => ?_))
    obtain ⟨hph, hres⟩ := State.resolveReady_iff.1 hc
    exact h.elim (· hph) hres
  · have hfire := (State.internal_of_ready (d := .drainStart) hready (by decide)
      (State.drainReady_iff.2 ⟨hph, hres, State.drainTrigger_iff.2 ⟨hst, hpend, htrig⟩⟩)).trans
      (State.drainStart_of_choice hchoice)
    exact ⟨fun hm => congrArg Host.Outcome.next (hfire.trans (if_pos hm)),
      fun hm => congrArg Host.Outcome.next (hfire.trans (if_neg hm))⟩
  · have hchoice : s.mb.resolveChoice = some e := MergeBuffer.oldest_of_split hage (fun f hf => by
      by_cases hfault : (s.mb.entry f).state = .faulted
      · simp [ho f hf hfault]
      · simp [hfault]) (by simp [hst, hpend])
    exact congrArg Host.Outcome.next ((State.internal_of_ready (d := .resolveRequest) hready (by decide)
      (State.resolveReady_iff.2 ⟨hph, by simp [hchoice]⟩)).trans (State.resolveRequest_of_choice hchoice))

/-! ### The disturbance of a stored word (R7, R8) -/

theorem State.disturb_wordAt_same (h : InvArray s) (a : Addr) (flips : Bits39) :
    (s.disturb a flips).wordAt a = { s.wordAt a with flips := (s.wordAt a).flips ^^^ flips } :=
  ArrayMem.get_put_same _ _ _ h

theorem State.disturb_wordAt_other {a b : Addr} (h : b ≠ a) (flips : Bits39) :
    (s.disturb a flips).wordAt b = s.wordAt b :=
  ArrayMem.get_put_other _ _ fun hab => h (BitVec.eq_of_toNat_eq hab)

theorem State.setArray_sameBut (s : State) (x : ArrayMem) : s.sameBut (s.setArray x) [.array] := fun b hb => by
  cases b <;> first | rfl | simp at hb

/-! ### The decode of a stored word (R8 to R10) -/

theorem positions_one : ∀ p : Fin 39, positions (1#39 <<< p.val) = [p.val] := by decide +kernel

theorem positions_two : ∀ p q : Fin 39, p < q → positions (1#39 <<< p.val ||| 1#39 <<< q.val) = [p.val, q.val] := by
  decide +kernel

theorem mem_positions {x : Bits39} {k : Nat} (h : k ∈ positions x) : k < 39 :=
  List.mem_range.1 (List.mem_filter.1 h).1

/-- The flipped data bit of a CORRECTED word is inverted back; a flipped check bit is no data bit (R9). -/
theorem corrected_delivers : ∀ p : Fin 39,
    (1#39 <<< p.val).setWidth 32 = if p.val < 32 then 1#32 <<< p.val else 0#32 := by decide +kernel

/-- Every outcome is CLEAN, UNCORRECTABLE, or CORRECTED at 1 to 39 (R8, R10). -/
def DecodeOutcome.Fits (o : DecodeOutcome) : Prop :=
  o = .clean ∨ o = .uncorrectable ∨ ∃ pos, o = .corrected pos ∧ 1 ≤ pos.toNat ∧ pos.toNat ≤ 39

theorem freeOutcome_fits (n : Nat) : (freeOutcome n).Fits := by
  unfold freeOutcome
  split
  · exact .inl rfl
  · split
    · exact .inr (.inl rfl)
    · refine .inr (.inr ⟨_, rfl, ?_, ?_⟩) <;> rw [BitVec.toNat_ofNat] <;> omega

theorem StoredWord.outcome_fits (a : Addr) (w : StoredWord) : (w.outcome a).Fits := by
  unfold StoredWord.outcome
  split
  · exact freeOutcome_fits _
  · split
    · exact .inl rfl
    · rename_i p hp
      have hlt : p < 39 := mem_positions (x := w.flips) (by simp [hp])
      refine .inr (.inr ⟨_, rfl, ?_, ?_⟩) <;> rw [BitVec.toNat_ofNat] <;> omega
    · exact .inr (.inl rfl)
    · exact freeOutcome_fits _

theorem deliveredData_of_sampled {w : Word} {o : DecodeOutcome} (h : o = .clean ∨ o = .uncorrectable) :
    deliveredData w o = w := by
  rcases h with rfl | rfl <;> rfl

theorem deliveredData_corrected (w : Word) (pos : BitVec 7) :
    deliveredData w (.corrected pos) = if pos.toNat ≤ 32 then w ^^^ (1#32 <<< (pos.toNat - 1)) else w := rfl

section
variable {a : Addr} {d : Word}

theorem StoredWord.read_of_one {p : Nat} (hp : p < 39) :
    (StoredWord.mk (.written d) (1#39 <<< p)).read a = (d, .corrected (BitVec.ofNat 7 (p + 1))) := by
  have hpos : positions (1#39 <<< p) = [p] := positions_one ⟨p, hp⟩
  have hout : (StoredWord.mk (.written d) (1#39 <<< p)).outcome a = .corrected (BitVec.ofNat 7 (p + 1)) := by
    simp [StoredWord.outcome, hpos]
  have hbits : (1#39 <<< p).setWidth 32 = if p < 32 then 1#32 <<< p else 0#32 := corrected_delivers ⟨p, hp⟩
  have hnat : (BitVec.ofNat 7 (p + 1)).toNat = p + 1 := by
    rw [BitVec.toNat_ofNat]
    omega
  rw [StoredWord.read, hout, deliveredData_corrected, hnat, StoredWord.sampled, hbits]
  by_cases h32 : p < 32
  · rw [if_pos h32, if_pos (by omega)]
    simp [StoredWord.stored]
  · rw [if_neg h32, if_neg (by omega)]
    simp [StoredWord.stored]

theorem StoredWord.read_of_two {p q : Nat} (hpq : p < q) (hq : q < 39) :
    (StoredWord.mk (.written d) (1#39 <<< p ||| 1#39 <<< q)).read a =
      (d ^^^ (1#39 <<< p ||| 1#39 <<< q).setWidth 32, .uncorrectable) := by
  have hpos : positions (1#39 <<< p ||| 1#39 <<< q) = [p, q] :=
    positions_two ⟨p, hpq.trans hq⟩ ⟨q, hq⟩ hpq
  have hout : (StoredWord.mk (.written d) (1#39 <<< p ||| 1#39 <<< q)).outcome a = .uncorrectable := by
    simp [StoredWord.outcome, hpos]
  rw [StoredWord.read, hout]
  rfl

end

/-- Settles O48: the array with one stored word replaced, and the decode by the positions of the flipped bits. -/
theorem disturbanceAndDecode : Obligations.DisturbanceAndDecode := by
  unfold Obligations.DisturbanceAndDecode
  refine ⟨fun s a flips hinv => ⟨s.disturb a flips, rfl, s.setArray_sameBut _, State.disturb_wordAt_same hinv a flips,
    fun b hb => State.disturb_wordAt_other hb flips⟩, fun s a d => ⟨fun h => ?_, fun p hp h => ?_, fun p q hpq hq h => ?_,
    (s.wordAt a).outcome_fits a, fun h => deliveredData_of_sampled h, fun pos h => ?_⟩⟩
  · rw [State.readArray, h]
    exact StoredWord.fresh_read a d
  · rw [State.readArray, h, StoredWord.read_of_one hp]
  · rw [State.readArray, h, StoredWord.read_of_two hpq hq]
  · have hdata : (s.readArray a).1 = deliveredData ((s.wordAt a).sampled a) (.corrected pos) :=
      congrArg (deliveredData _) h
    rw [hdata, deliveredData_corrected]
    exact ⟨fun hle => if_pos hle, fun hgt => if_neg (Nat.not_le.2 hgt)⟩

end Sys2Proof.Machine
end

section
/-! The processor port's dispatch and the steps of its request (R115 to R121), the stream ports' dispatch, read words and
admissions (R142, R143, R150). -/

namespace Sys2Proof.Machine

variable {s t u : State}

/-! ### Lookups (R29) -/

theorem State.lookupServes (s : State) (w : Addr) (need : LaneMask) : LookupServes s w need := by
  refine ⟨fun h => ?_, fun e hne haddr huniq => ?_⟩
  · simp [State.mbLookup, MergeBuffer.entryFor_of_none h]
  · have hfor := MergeBuffer.entryFor_of_unique hne haddr huniq
    exact ⟨fun h => by simp [State.mbLookup, hfor, covers, h], fun h => by simp [State.mbLookup, hfor, covers, h]⟩

/-! ### PRQ_DISPATCH (R115, R116) -/

/-- The head of the PRQ in execution, at a step. -/
def State.executing (s : State) (r : PpRequest) (rest : List PpRequest) (ph : PpPhase) : State :=
  s.setPpt { s.ppt with prq := rest, exec := some { req := r, phase := ph } }

theorem State.prqReady_iff :
    s.prqReady = true ↔ s.ctl.state = .running ∧ s.ppt.exec = none ∧ s.ppt.cq.length < 8 ∧ s.ppt.prq ≠ [] := by
  simp [State.prqReady, and_assoc]

theorem State.executing_verdict (s : State) (r : PpRequest) (rest : List PpRequest) (ph : PpPhase) :
    (s.executing r rest ph).ppVerdict r = s.ppVerdict r := by
  unfold State.ppVerdict
  cases r.op <;> rfl

theorem State.setPpPhase_executing (s : State) (r : PpRequest) (rest : List PpRequest) (ph ph' : PpPhase) :
    (s.executing r rest ph).setPpPhase ph' = s.executing r rest ph' := rfl

theorem State.logRecord_setPpt (s : State) (x : Ppt) (r : ErrorRecord) :
    (s.setPpt x).logRecord r = (s.logRecord r).setPpt x := by
  unfold State.logRecord
  rw [State.setPpt_elog]
  split <;> rfl

theorem State.logRecord_ppt (s : State) (r : ErrorRecord) : (s.logRecord r).ppt = s.ppt := by
  obtain ⟨l, hl⟩ := s.logRecord_elog r
  rw [hl]
  rfl

section
variable {r : PpRequest} {rest : List PpRequest}

/-- The state in which the head's steps begin. -/
theorem State.prqDispatch_eq (h : s.ppt.prq = r :: rest) :
    s.prqDispatch = (s.executing r rest .fenceHold).ppStart r := by
  simp only [State.prqDispatch, h]
  rfl

theorem State.prqDispatch_of_fault {k : RecordKind} {a : Addr} (h : s.ppt.prq = r :: rest)
    (hv : s.ppVerdict r = .fault k a) :
    s.prqDispatch =
      (s.logFault k .pp a r.op.access r.tag).setPpt
        { s.ppt with
          prq := rest
          exec := none
          cq := s.ppt.cq ++ [{ tag := r.tag, op := r.op, status := faultCplStatus k, data := 0#32 }] } := by
  rw [State.prqDispatch_eq h, State.ppStart, (s.executing_verdict r rest _).trans hv]
  simp only [State.logFault, State.executing, State.logRecord_setPpt]
  exact State.ppComplete_some (x := { req := r, phase := .fenceHold }) (by rfl) _ _

theorem State.prqDispatch_of_flush (h : s.ppt.prq = r :: rest) (hv : s.ppVerdict r = .pass) (hop : r.op = .flush) :
    s.prqDispatch = (s.executing r rest .flushing).setMb s.mb.flushStart := by
  rw [State.prqDispatch_eq h, State.ppStart, (s.executing_verdict r rest _).trans hv, hop]
  rfl

theorem State.prqDispatch_of_pass (h : s.ppt.prq = r :: rest) (hv : s.ppVerdict r = .pass) (hop : r.op ≠ .flush) :
    s.prqDispatch =
      if s.fenced (wordOf r.addr) then s.executing r rest .fenceHold else (s.executing r rest .fenceHold).ppLockStep r := by
  have hstep : s.prqDispatch = (s.executing r rest .fenceHold).ppFenceStep r := by
    rw [State.prqDispatch_eq h, State.ppStart, (s.executing_verdict r rest _).trans hv]
    cases hr : r.op with
    | flush => exact absurd hr hop
    | read | write | atomic => rfl
  rw [hstep]
  rfl

end

theorem MergeBuffer.flushStart_entry (mb : MergeBuffer) (e : Fin 8) : mb.flushStart.entry e = (mb.entry e).flushMark :=
  Vector.getElem_map ..

/-- Settles O34: the dispatch conditions, then the verdict. -/
theorem prqDispatch : Obligations.PrqDispatch := by
  unfold Obligations.PrqDispatch
  refine ⟨fun s h => ?_, ⟨rfl, rfl, rfl⟩, fun s r rest hready hrun hexec hcq hprq => ?_⟩
  · refine congrArg Host.Outcome.next (State.internal_of_not_condition (d := .prqDispatch) (Bool.eq_false_iff.2 fun hc => ?_))
    obtain ⟨hrun, hexec, hcq, hprq⟩ := State.prqReady_iff.1 hc
    rcases h with h | h | h | h
    · exact h hrun
    · exact h hexec
    · omega
    · exact hprq h
  · have hfire := State.internal_of_ready (d := .prqDispatch) hready (by decide)
      (State.prqReady_iff.2 ⟨hrun, hexec, hcq, by simp [hprq]⟩)
    refine ⟨fun k a hv => ?_, fun hv hop => ?_, fun hv hop => ?_⟩
    · refine ⟨_, congrArg Host.Outcome.next (hfire.trans (State.prqDispatch_of_fault hprq hv)), ?_, ?_, rfl⟩
      · obtain ⟨l, hl⟩ := s.logRecord_elog
          { ErrorRecord.base k .pp a with access := some r.op.access, tag := some r.tag }
        have hlog : s.logFault k .pp a r.op.access r.tag = s.setElog l := hl
        rw [hlog]
        exact (s.setElog_sameBut l).then (State.setPpt_sameBut _ _) (by simp) (by simp)
      · rw [State.setPpt_ppt, ← hexec]
    · refine ⟨_, congrArg Host.Outcome.next (hfire.trans (State.prqDispatch_of_flush hprq hv hop)), rfl, rfl, fun e => ?_⟩
      have hmark := s.mb.flushStart_entry e
      refine ⟨fun hst => hmark.trans ?_, fun hst => hmark.trans ?_, fun hst => hmark.trans ?_⟩
      · rcases hst with hst | hst <;> simp [Entry.flushMark, Entry.live, hst]
      · rcases hst with hst | hst <;> simp [Entry.flushMark, Entry.live, hst]
      · simp [Entry.flushMark, Entry.live, hst]
    · have hgo := hfire.trans (State.prqDispatch_of_pass hprq hv hop)
      exact ⟨fun hf => congrArg Host.Outcome.next (hgo.trans (if_pos hf)),
        fun hf => congrArg Host.Outcome.next (hgo.trans (if_neg (by simp [hf])))⟩

/-! ### Lanes (R3, Table 1-2a) -/

theorem wordOf_toNat (a : ByteAddr) : (wordOf a).toNat = a.toNat / 4 := by
  have ha := a.isLt
  simp only [wordOf, BitVec.extractLsb'_toNat, Nat.shiftRight_eq_div_pow]
  omega

/-- A half word or a byte put in its lanes is found there again. -/
theorem extractLsb'_lane (d : Word) : ∀ lane < 4,
    (((d &&& 0xFF#32) <<< (8 * lane)) >>> (8 * lane)).extractLsb' 0 8 = d.extractLsb' 0 8 := by
  intro lane hlane
  refine BitVec.eq_of_getLsbD_eq fun i hi => ?_
  interval_cases lane <;> interval_cases i <;> simp

theorem extractLsb'_half (d : Word) :
    (d &&& 0xFFFF#32).extractLsb' 0 16 = d.extractLsb' 0 16 ∧
    ((d &&& 0xFFFF#32) <<< 16).extractLsb' 16 16 = d.extractLsb' 0 16 := by
  constructor
  all_goals
    refine BitVec.eq_of_getLsbD_eq fun i hi => ?_
    interval_cases i <;> simp

theorem shiftRight_half (d : Word) : (d >>> 16) &&& 0xFFFF#32 = d >>> 16 := by
  refine BitVec.eq_of_getLsbD_eq fun i hi => ?_
  interval_cases i <;> simp

theorem PpRequest.mergeWrite_lowHalf {r : PpRequest} (hsz : r.size = .half) (hlow : r.addr.toNat % 4 = 0) :
    r.mergeWrite.mask = 0b0011#4 ∧ r.mergeWrite.data = r.opA &&& 0xFFFF#32 := by
  simp [PpRequest.mergeWrite, PpRequest.lanes, laneMaskOf, writeLanes, laneOf, hsz, hlow]

theorem PpRequest.mergeWrite_highHalf {r : PpRequest} (hsz : r.size = .half) (hlow : r.addr.toNat % 4 = 2) :
    r.mergeWrite.mask = 0b1100#4 ∧ r.mergeWrite.data = (r.opA &&& 0xFFFF#32) <<< 16 := by
  simp [PpRequest.mergeWrite, PpRequest.lanes, laneMaskOf, writeLanes, laneOf, hsz, hlow]

theorem PpRequest.mergeWrite_byte {r : PpRequest} (hsz : r.size = .byte) :
    r.mergeWrite.mask = 1#4 <<< (r.addr.toNat % 4) ∧
    r.mergeWrite.data = (r.opA &&& 0xFF#32) <<< (8 * (r.addr.toNat % 4)) := by
  simp [PpRequest.mergeWrite, PpRequest.lanes, laneMaskOf, writeLanes, laneOf, hsz]

/-! ### A processor request past its fence (R116 to R120) -/

section
variable {x : PpExec}

/-- The executing request at another step. -/
theorem State.ppLockStep_read_locked (hx : s.ppt.exec = some x) (hop : x.req.op = .read)
    (hl : s.locked (wordOf x.req.addr) = true) :
    s.ppLockStep x.req = s.setPpt { s.ppt with exec := some { x with phase := .lockHold } } := by
  simp only [State.ppLockStep, hop, hl, if_true]
  exact State.setPpPhase_some hx _

theorem State.ppLockStep_read_free (hop : x.req.op = .read) (hl : s.locked (wordOf x.req.addr) = false) :
    s.ppLockStep x.req = s.ppLookup x.req := by
  simp [State.ppLockStep, hop, hl]

theorem State.ppLookup_served (hx : s.ppt.exec = some x) {d : Word}
    (hd : s.mbLookup (wordOf x.req.addr) x.req.lanes = some d) :
    s.ppLookup x.req =
      s.setPpt { s.ppt with
        exec := none
        cq := s.ppt.cq ++
          [{ tag := x.req.tag, op := x.req.op, status := .ok, data := readResult x.req.size x.req.addr d }] } := by
  simp only [State.ppLookup, hd]
  exact State.ppComplete_some hx _ _

theorem State.ppLookup_array (hx : s.ppt.exec = some x) (hd : s.mbLookup (wordOf x.req.addr) x.req.lanes = none) :
    s.ppLookup x.req =
      (s.setPpt { s.ppt with exec := some { x with phase := .readWait } }).request .pp .read (wordOf x.req.addr) := by
  simp only [State.ppLookup, hd, State.setPpPhase_some hx]

theorem State.ppLockStep_write (hx : s.ppt.exec = some x) (hop : x.req.op = .write) :
    s.ppLockStep x.req = (s.setPpt { s.ppt with exec := some { x with phase := .merge } }).mergeIssue x.req.mergeWrite := by
  simp only [State.ppLockStep, hop, State.setPpPhase_some hx]

theorem State.ppLockStep_atomic_held {op : AtomicOp} (hx : s.ppt.exec = some x) (hop : x.req.op = .atomic op)
    (h : s.locked (wordOf x.req.addr) = true ∨ s.hasLock .pp = true) :
    s.ppLockStep x.req = s.setPpt { s.ppt with exec := some { x with phase := .lockHold } } := by
  have hc : (s.locked (wordOf x.req.addr) || s.hasLock .pp) = true := Bool.or_eq_true_iff.2 h
  simp only [State.ppLockStep, hop, hc, if_true]
  exact State.setPpPhase_some hx _

end

/-- Settles O35: the steps by the request's operation, its lanes by its size. -/
theorem processorRequestGoesOn : Obligations.ProcessorRequestGoesOn := by
  unfold Obligations.ProcessorRequestGoesOn
  refine ⟨wordOf_toNat, fun s x hx => ⟨s.lookupServes _ _, fun hop hl => State.ppLockStep_read_locked hx hop hl,
    fun hop hl => ⟨fun d hd => ?_, fun hd => ?_⟩, fun hop => ?_, fun op hop => ⟨fun h => ?_, fun hl hpp => ?_⟩,
    fun a d => ⟨rfl, fun h => ?_, fun h => ?_, rfl⟩⟩⟩
  · rw [State.ppLockStep_read_free hop hl, State.ppLookup_served hx hd, hop]
    rfl
  · exact (State.ppLockStep_read_free hop hl).trans (State.ppLookup_array hx hd)
  · refine ⟨x.req.mergeWrite, State.ppLockStep_write hx hop, rfl, rfl, fun hsz => ?_, fun hsz hlow => ?_,
      fun hsz hlow => ?_, fun hsz => ?_⟩
    · simp [PpRequest.mergeWrite, PpRequest.lanes, laneMaskOf, writeLanes, hsz]
    · obtain ⟨hmask, hdata⟩ := PpRequest.mergeWrite_lowHalf hsz hlow
      exact ⟨hmask, by rw [hdata, (extractLsb'_half _).1]⟩
    · obtain ⟨hmask, hdata⟩ := PpRequest.mergeWrite_highHalf hsz hlow
      exact ⟨hmask, by rw [hdata, (extractLsb'_half _).2]⟩
    · obtain ⟨hmask, hdata⟩ := PpRequest.mergeWrite_byte hsz
      exact ⟨hmask, by rw [hdata, extractLsb'_lane _ _ (Nat.mod_lt _ (by decide))]⟩
  · exact State.ppLockStep_atomic_held hx hop h
  · have hgo := State.ppLockStep_atomic hop hl hpp
    rw [State.setPpPhase_some hx] at hgo
    exact hgo
  · simp [readResult, laneOf, h]
  · simp only [readResult, laneOf, h]
    exact shiftRight_half d

end Sys2Proof.Machine
end

section
/-! The stream ports' dispatch, read words and admissions (R142, R143, R150). -/

namespace Sys2Proof.Machine

variable {s t u : State} {p : SpId} {b : Burst}

/-! ### SRQ_DISPATCH (R142) -/

theorem State.srqReady_iff :
    s.srqReady p = true ↔
      s.ctl.state = .running ∧ (s.sp p).state = .enabled ∧ (s.sp p).burst = none ∧ (s.sp p).srq ≠ [] := by
  simp [State.srqReady, and_assoc]

section
variable {h : Header} {rest : List Header}

/-- A refused header's dispatch: END, the record, and the suspension while suspend-on-fault is on (R99, R100). -/
theorem State.srqDispatch_of_fault {k : RecordKind} {a : Addr} (hsrq : (s.sp p).srq = h :: rest)
    (hv : s.streamVerdict p h = .fault k a) :
    s.srqDispatch p =
      (s.logFault k p.port a h.op.access h.tag).setSp p
        (if (s.sp p).suspendOnFault then ((s.sp p).ended h.tag (faultEndStatus k) 0).stopped .fault
         else (s.sp p).ended h.tag (faultEndStatus k) 0) := by
  have hend : (s.setBurst p (some h.start)).endBurst p (faultEndStatus k) =
      s.setSp p ((s.sp p).ended h.tag (faultEndStatus k) 0) := by
    rw [State.setBurst, State.endBurst_eq_ended (b := h.start) (by rw [State.setSp_sp_same]), State.setSp_sp_same,
      State.setSp_setSp]
    rfl
  simp only [State.srqDispatch, hsrq, hv, hend, State.logFault, State.logRecord_setSp, State.setSp_sp_same]
  have hflag : ((s.sp p).ended h.tag (faultEndStatus k) 0).suspendOnFault = (s.sp p).suspendOnFault := rfl
  rw [hflag]
  split
  · rw [State.suspend_eq_stopped, State.setSp_sp_same, State.setSp_setSp]
  · rfl

theorem State.srqDispatch_of_read (hsrq : (s.sp p).srq = h :: rest) (hv : s.streamVerdict p h = .pass)
    (hop : h.op = .read) : s.srqDispatch p = (s.setBurst p (some h.start)).readOn p := by
  simp only [State.srqDispatch, hsrq, hv, hop]

theorem State.srqDispatch_of_atomic {op : AtomicOp} (hsrq : (s.sp p).srq = h :: rest)
    (hv : s.streamVerdict p h = .pass) (hop : h.op = .atomic op) :
    s.srqDispatch p = (s.setBurst p (some h.start)).admitAtomic p := by
  simp only [State.srqDispatch, hsrq, hv, hop]

theorem State.srqDispatch_of_write (hsrq : (s.sp p).srq = h :: rest) (hv : s.streamVerdict p h = .pass)
    (hop : h.op = .write) :
    s.srqDispatch p =
      s.setSp p
        { s.sp p with
          burst := some { h.start with phase := .beatWait }
          timer := 0
          expiryDue := false
          outbound := (s.sp p).outbound ++ [.dataRequest h.tag] } := by
  simp only [State.srqDispatch, hsrq, hv, hop, State.send, State.setBurst, State.awaitBeat, State.setSp_setSp,
    State.setSp_sp_same]
  rfl

end

/-- Settles O36: the dispatch conditions, then the verdict and the operation. -/
theorem srqDispatch : Obligations.SrqDispatch := by
  unfold Obligations.SrqDispatch
  refine ⟨fun s p h => ?_, ⟨rfl, rfl⟩, fun s p h rest hready hrun hst hburst hsrq => ?_⟩
  · refine congrArg Host.Outcome.next (State.internal_of_not_condition (d := .srqDispatch p) (Bool.eq_false_iff.2 fun hc => ?_))
    obtain ⟨hrun, hst, hburst, hsrq⟩ := State.srqReady_iff.1 hc
    rcases h with h | h | h | h
    · exact h hrun
    · exact h hst
    · exact h hburst
    · exact hsrq h
  · have hfire : s.internal (.srqDispatch p) = s.srqDispatch p := State.internal_of_ready hready nofun
      (State.srqReady_iff.2 ⟨hrun, hst, hburst, by simp [hsrq]⟩)
    refine ⟨fun k a hv => ?_, fun hv => ⟨fun hop => ?_, fun hop => ?_, fun op hop => ?_⟩⟩
    · refine ⟨_, congrArg Host.Outcome.next (hfire.trans (State.srqDispatch_of_fault hsrq hv)),
        State.setSp_logRecord_sameBut s p _ _, fun hoff => ?_, fun hon => ?_, ?_⟩
      · rw [State.setSp_sp_same, if_neg (by simp [hoff])]
      · rw [State.setSp_sp_same, if_pos hon]
      · rw [State.setSp_elog]
        rfl
    · exact congrArg Host.Outcome.next (hfire.trans (State.srqDispatch_of_read hsrq hv hop))
    · exact congrArg Host.Outcome.next (hfire.trans (State.srqDispatch_of_write hsrq hv hop))
    · exact congrArg Host.Outcome.next (hfire.trans (State.srqDispatch_of_atomic hsrq hv hop))

/-! ### Read words (R143, R145) -/

section
variable (n : Nat) (hb : (s.sp p).burst = some b)
include hb

theorem State.readWords_fenced (hf : s.fenced b.word = true) :
    State.readWords (n + 1) p s = s.setSp p { s.sp p with burst := some { b with phase := .readHold, hold := .fence } } := by
  simp only [State.readWords, hb, hf, if_true]
  rfl

theorem State.readWords_locked (hf : s.fenced b.word = false) (hl : s.locked b.word = true) :
    State.readWords (n + 1) p s = s.setSp p { s.sp p with burst := some { b with phase := .readHold, hold := .lock } } := by
  simp only [State.readWords, hb, hf, hl, if_true, Bool.false_eq_true, if_false]
  rfl

theorem State.readWords_array (hf : s.fenced b.word = false) (hl : s.locked b.word = false)
    (hd : s.mbLookup b.word 15#4 = none) : State.readWords (n + 1) p s = s.readRequest p b := by
  simp only [State.readWords, hb, hf, hl, hd, Bool.false_eq_true, if_false]

/-- The port with the READ_BEAT of its current word sent. -/
def StreamPort.beatSent (x : StreamPort) (b : Burst) (d : Word) (st : BeatStatus) : StreamPort :=
  { x with
    burst := some { b with done := b.done + 1 }
    outbound := x.outbound ++ [.readBeat b.hdr.tag d st] }

omit hb in
theorem State.send_setBurst_beat (d : Word) (st : BeatStatus) :
    (s.send p [.readBeat b.hdr.tag d st]).setBurst p (some { b with done := b.done + 1 }) =
      s.setSp p ((s.sp p).beatSent b d st) := by
  simp only [State.send, State.setBurst, State.setSp_setSp, State.setSp_sp_same]
  rfl

omit hb in
/-- The burst's end after that beat. -/
theorem State.endBurst_beatSent (d : Word) (st : BeatStatus) (e : EndStatus) :
    (s.setSp p ((s.sp p).beatSent b d st)).endBurst p e =
      s.setSp p (((s.sp p).beatSent b d st).ended b.hdr.tag e (b.done + 1)) := by
  rw [State.endBurst_eq_ended (b := { b with done := b.done + 1 }) (by rw [State.setSp_sp_same]; rfl), State.setSp_sp_same,
    State.setSp_setSp]

theorem State.readWords_served (hf : s.fenced b.word = false) (hl : s.locked b.word = false) {d : Word}
    (hd : s.mbLookup b.word 15#4 = some d) :
    State.readWords (n + 1) p s =
      if b.done + 1 = b.hdr.length then s.setSp p (((s.sp p).beatSent b d .clean).ended b.hdr.tag .ok (b.done + 1))
      else State.readWords n p (s.setSp p ((s.sp p).beatSent b d .clean)) := by
  simp only [State.readWords, hb, hf, hl, hd, Bool.false_eq_true, if_false, State.send_setBurst_beat,
    State.endBurst_beatSent]

end

/-- The request for the array read of a word, unless a discarded read is awaited (R133, log 13). -/
theorem State.readRequest_eq (s : State) (p : SpId) (b : Burst) :
    s.readRequest p b =
      if (s.sp p).discardedRead.isNone then
        (s.setSp p { s.sp p with burst := some { b with phase := .readWait, hold := .none } }).request
          (portRequester p.port) .read b.word
      else s.setSp p { s.sp p with burst := some { b with phase := .readWait, hold := .none } } := rfl

/-! ### Admissions (R150) -/

theorem State.admitAtomic_fenced (hb : (s.sp p).burst = some b) (hf : s.fenced b.hdr.addr = true) :
    s.admitAtomic p = s.setSp p { s.sp p with burst := some { b with phase := .admitHold, hold := .fence } } := by
  simp only [State.admitAtomic, hb, hf, if_true]
  rfl

theorem State.admitAtomic_locked (hb : (s.sp p).burst = some b) (hf : s.fenced b.hdr.addr = false)
    (hl : s.locked b.hdr.addr = true) :
    s.admitAtomic p = s.setSp p { s.sp p with burst := some { b with phase := .admitHold, hold := .lock } } := by
  simp only [State.admitAtomic, hb, hf, hl, if_true, Bool.false_eq_true, if_false]
  rfl

/-- The port of an admitted atomic. -/
def StreamPort.admitted (x : StreamPort) (b : Burst) (ph : BurstPhase) : StreamPort :=
  { x with
    burst := some { b with phase := ph, hold := .none, beat := none }
    timer := 0
    expiryDue := false
    outbound := x.outbound ++ [.dataRequest b.hdr.tag] }

theorem State.admitAtomic_free (hb : (s.sp p).burst = some b) (hf : s.fenced b.hdr.addr = false)
    (hl : s.locked b.hdr.addr = false) :
    s.admitAtomic p = (s.setSp p ((s.sp p).admitted b .operandWait)).blockOperand p := by
  simp only [State.admitAtomic, hb, hf, hl, Bool.false_eq_true, if_false, State.send, State.awaitBeat, State.setSp_setSp,
    State.setSp_sp_same]
  rfl

theorem State.blockOperand_of_empty (h : (s.sp p).inbound = []) : s.blockOperand p = s := by
  simp [State.blockOperand, h]

theorem State.blockOperand_of_none (h : (s.sp p).burst = none) : s.blockOperand p = s := by
  unfold State.blockOperand
  split
  · simp_all
  · rfl

/-- A burst in OPERAND_WAIT whose operand waits first on the link is OPERAND_BLOCKED (R150). -/
theorem State.blockOperand_of_waits {f : Frame} {more : List Frame} (h : (s.sp p).inbound = f :: more)
    (hb : (s.sp p).burst = some b) (hph : b.phase = .operandWait) (hw : BeatWaits s p f) :
    s.blockOperand p = s.setSp p { s.sp p with burst := some { b with phase := .operandBlocked } } := by
  have hblock : s.blockOperand p = s.setBurst p (some { b with phase := .operandBlocked }) := by
    simp only [State.blockOperand, h, hb]
    exact if_pos ⟨hph, State.canTake_eq_false_iff.2 hw⟩
  exact hblock

theorem State.blockOperand_of_takes {f : Frame} {more : List Frame} (h : (s.sp p).inbound = f :: more)
    (hb : (s.sp p).burst = some b) (hnot : ¬ (b.phase = .operandWait ∧ BeatWaits s p f)) : s.blockOperand p = s := by
  simp only [State.blockOperand, h, hb]
  exact if_neg fun ⟨hph, hw⟩ => hnot ⟨hph, State.canTake_eq_false_iff.1 hw⟩

/-- The admitted atomic's operand waits behind the port's own lock entry. -/
theorem State.beatWaits_admitted {f : Frame} :
    BeatWaits (s.setSp p ((s.sp p).admitted b .operandWait)) p f ↔
      frameType f = 2#4 ∧ beatTag f = b.hdr.tag ∧ (b.hdr.op ≠ .atomic .compareSwap ∨ b.opA ≠ none) ∧
      s.hasLock p.port = true := by
  have hlock : (s.setSp p ((s.sp p).admitted b .operandWait)).hasLock p.port = s.hasLock p.port := by
    simp [State.hasLock]
  simp only [BeatWaits, State.setSp_sp_same, hlock]
  simp [StreamPort.admitted]

theorem Burst.word_toNat (b : Burst) : b.word.toNat = (b.hdr.addr.toNat + b.done) % 2 ^ 20 := by
  simp [Burst.word, BitVec.toNat_add]

/-- Settles O37: a read word by its holds and its lookup, an admission by its holds and the first frame on the link. -/
theorem streamWordTakenUp : Obligations.StreamWordTakenUp := by
  unfold Obligations.StreamWordTakenUp
  refine ⟨fun _ _ => rfl, Burst.word_toNat, fun s p b hb => ?_⟩
  refine ⟨s.lookupServes _ _, fun n => ⟨fun hf => State.readWords_fenced n hb hf,
    fun hf hl => State.readWords_locked n hb hf hl, fun hf hl => ⟨fun hd => ⟨fun hr => ?_, fun hr => ?_⟩, fun d hd =>
      ⟨fun hlast => ?_, fun hmore => ?_⟩⟩⟩, fun hf => State.admitAtomic_fenced hb hf,
    fun hf hl => State.admitAtomic_locked hb hf hl, fun hf hl => ?_⟩
  · rw [State.readWords_array n hb hf hl hd, State.readRequest_eq, if_pos (by simp [hr])]
    simp only [State.request, State.setSlot, State.setSp_arb]
    rfl
  · rw [State.readWords_array n hb hf hl hd, State.readRequest_eq, if_neg (by simpa using hr)]
  · exact (State.readWords_served n hb hf hl hd).trans (if_pos hlast)
  · exact (State.readWords_served n hb hf hl hd).trans (if_neg hmore)
  · have hfree := State.admitAtomic_free hb hf hl
    have hburst : ((s.setSp p ((s.sp p).admitted b .operandWait)).sp p).burst =
        some { b with phase := .operandWait, hold := .none, beat := none } := by
      rw [State.setSp_sp_same]
      rfl
    have hin : ((s.setSp p ((s.sp p).admitted b .operandWait)).sp p).inbound = (s.sp p).inbound := by
      rw [State.setSp_sp_same]
      rfl
    intro admitted operandWaits
    cases hlink : (s.sp p).inbound with
    | nil =>
      have hgo := hfree.trans (State.blockOperand_of_empty (hin.trans hlink))
      refine ⟨fun hw => ?_, fun _ => hgo⟩
      obtain ⟨⟨f, more, hfm, -⟩, -⟩ := hw
      simp [hlink] at hfm
    | cons f more =>
      refine ⟨fun hw => ?_, fun hnot => ?_⟩
      · obtain ⟨⟨g, rest, hfm, hty, htag⟩, hop, hlock⟩ := hw
        obtain ⟨rfl, rfl⟩ := List.cons.inj (hlink.symm.trans hfm)
        have hgo := hfree.trans (State.blockOperand_of_waits (hin.trans hlink) hburst rfl
          (State.beatWaits_admitted.2 ⟨hty, htag, hop, hlock⟩))
        rw [State.setSp_sp_same, State.setSp_setSp] at hgo
        exact hgo
      · refine hfree.trans (State.blockOperand_of_takes (hin.trans hlink) hburst fun ⟨_, hw⟩ => ?_)
        obtain ⟨hty, htag, hop, hlock⟩ := State.beatWaits_admitted.1 hw
        exact hnot ⟨⟨f, more, hlink, hty, htag⟩, hop, hlock⟩

end Sys2Proof.Machine
end

section
/-! ARRAY_GRANT (R76 to R83): the winner by tier and ring, and what each winner's grant does. -/

namespace Sys2Proof.Machine

variable {s t u : State} {r : Requester} {tier3 : Bool} {q : Request}

/-! ### The winner (R77 to R79, R83) -/

/-- The requester has a request waiting that the controller state allows to be granted. -/
def State.mayWin (s : State) (r : Requester) : Prop :=
  (s.arb.slots.get r).isSome = true ∧ (s.ctl.state = .halted → r = .dr ∧ s.mb.drain.phase = .resolveWait)

theorem State.grantable_iff : s.grantable r = true ↔ s.mayWin r := by
  unfold State.grantable State.mayWin
  by_cases h : s.ctl.state = .halted <;> simp [h]

theorem State.urgent_iff (h : s.mayWin .dr) : s.urgent = true ↔ s.cfg.hwm.toNat ≤ s.mb.count Entry.live := by
  have hslot : s.arb.slots.dr.isSome = true := h.1
  simp [State.urgent, hslot]

/-- Tier 1: the drain engine's urgent request. -/
theorem State.winner_of_urgent (h : s.mayWin .dr) (hu : s.cfg.hwm.toNat ≤ s.mb.count Entry.live) :
    s.winner = some (.dr, false) := by
  simp [State.winner, (State.urgent_iff h).2 hu, State.grantable_iff.2 h]

/-- Past tier 1. -/
theorem State.winner_of_not_urgent (h : ¬ (s.mayWin .dr ∧ s.cfg.hwm.toNat ≤ s.mb.count Entry.live)) :
    s.winner =
      if s.grantable .sc && s.arb.bypass == 16 then some (.sc, false)
      else
        match (ringFrom s.sce.state.fillMode s.arb.pointer).find? s.grantable with
        | some r => some (r, true)
        | none => if s.grantable .sc && s.sce.state.patrolMode then some (.sc, false) else none := by
  have hno : (s.urgent && s.grantable .dr) = false := by
    refine Bool.eq_false_iff.2 fun hc => ?_
    obtain ⟨hu, hg⟩ := Bool.and_eq_true_iff.1 hc
    exact h ⟨State.grantable_iff.1 hg, (State.urgent_iff (State.grantable_iff.1 hg)).1 hu⟩
  unfold State.winner
  rw [hno]
  rfl

/-- Tier 2: the scrub engine passed over 16 times. -/
theorem State.winner_of_bypass (h : ¬ (s.mayWin .dr ∧ s.cfg.hwm.toNat ≤ s.mb.count Entry.live)) (hsc : s.mayWin .sc)
    (h16 : s.arb.bypass = 16) : s.winner = some (.sc, false) := by
  rw [State.winner_of_not_urgent h, if_pos (by simp [State.grantable_iff.2 hsc, h16])]

/-- Past tier 2. -/
theorem State.winner_of_not_bypass (h : ¬ (s.mayWin .dr ∧ s.cfg.hwm.toNat ≤ s.mb.count Entry.live))
    (h16 : ¬ (s.mayWin .sc ∧ s.arb.bypass = 16)) :
    s.winner =
      match (ringFrom s.sce.state.fillMode s.arb.pointer).find? s.grantable with
      | some r => some (r, true)
      | none => if s.grantable .sc && s.sce.state.patrolMode then some (.sc, false) else none := by
  refine (State.winner_of_not_urgent h).trans (if_neg fun hc => h16 ?_)
  obtain ⟨hg, hb⟩ := Bool.and_eq_true_iff.1 hc
  exact ⟨State.grantable_iff.1 hg, by simpa using hb⟩

/-! ### The grant (R76, R80, R81) -/

theorem State.grantReady_iff : s.grantReady = true ↔ s.aif.state = .idle ∧ s.winner ≠ none := by
  simp [State.grantReady, Option.isSome_iff_ne_none]

theorem State.grantDue_iff :
    s.dueCondition .grant = true ↔
      s.aif.state = .idle ∧ s.winner ≠ none ∧ ¬ (s.ctl.state = .quiescing ∧ QuiesceHolds s) ∧
      (s.own.backToIdle = false ∨ s.dueWork = []) := by
  simp only [State.dueCondition, Bool.and_eq_true, State.grantReady_iff, Bool.not_eq_true', Bool.or_eq_true,
    List.isEmpty_iff, ← Bool.not_eq_true, State.quiesceReady_iff]
  tauto

theorem State.internal_grant (hr : s.resetAsserted = false) (h : s.dueCondition .grant = true) :
    s.internal .grant = s.grant :=
  State.internal_of_due (by
    have hmem : Due.grant ∈ oneIf (s.dueCondition .grant) .grant := mem_oneIf.2 ⟨h, rfl⟩
    simpa [State.due, hr] using .inr (.inr hmem))

theorem Arbiter.bypassAfter_eq (a : Arbiter) (r : Requester) :
    a.bypassAfter r = if a.slots.sc = none then a.bypass else if r = .sc then 0 else min (a.bypass + 1) 16 := by
  unfold Arbiter.bypassAfter
  cases a.slots.sc <;> simp

theorem State.arbGrant_arb (s : State) (r : Requester) (tier3 : Bool) :
    (s.arbGrant r tier3).arb =
      { slots := s.arb.slots.put r none
        pointer := if tier3 then ringNext s.sce.state.fillMode r else s.arb.pointer
        bypass :=
          if s.arb.slots.sc = none then s.arb.bypass else if r = .sc then 0 else min (s.arb.bypass + 1) 16 } := by
  rw [← Arbiter.bypassAfter_eq]
  rfl

/-- What the winner does at its grant. -/
def State.serve (s : State) (r : Requester) (q : Request) : State :=
  match r with
  | .pp => s.grantPort .pp q
  | .sp0 => s.grantPort .sp0 q
  | .sp1 => s.grantPort .sp1 q
  | .dr => s.grantDrain
  | .ae => s.grantAtomic
  | .sc => s.grantScrub

theorem State.grant_eq_serve (hw : s.winner = some (r, tier3)) (hq : s.arb.slots.get r = some q) :
    s.grant = (s.arbGrant r tier3).serve r q := by
  simp only [State.grant, hw, hq]
  cases r <;> rfl

theorem State.setPpPhase_arb (s : State) (ph : PpPhase) : (s.setPpPhase ph).arb = s.arb := by
  unfold State.setPpPhase
  split <;> rfl

theorem State.burstGranted_arb (s : State) (p : SpId) : (s.burstGranted p).arb = s.arb := by
  unfold State.burstGranted State.setBurst
  split
  · rfl
  · rw [State.setSp_arb]

theorem State.grantDrain_arb (s : State) : s.grantDrain.arb = s.arb := by
  unfold State.grantDrain
  split
  · rfl
  · dsimp only
    split <;> rfl

theorem State.grantAtomic_arb (s : State) : s.grantAtomic.arb = s.arb := by
  unfold State.grantAtomic
  split <;> rfl

theorem State.grantScrub_arb (s : State) : s.grantScrub.arb = s.arb := by
  unfold State.grantScrub
  split <;> rfl

/-- The winner's own part leaves the arbiter alone. -/
theorem State.serve_arb (s : State) (r : Requester) (q : Request) : (s.serve r q).arb = s.arb := by
  cases r with
  | pp => exact s.setPpPhase_arb _
  | sp0 => exact s.burstGranted_arb .sp0
  | sp1 => exact s.burstGranted_arb .sp1
  | dr => exact s.grantDrain_arb
  | ae => exact s.grantAtomic_arb
  | sc => exact s.grantScrub_arb

/-! ### Each winner's own part (R36, R44, R60, R81, R161, R167) -/

theorem State.serve_pp {a : Addr} {x : PpExec} (ha : q.addr = some a) (hx : s.ppt.exec = some x) :
    s.serve .pp q =
      (s.setPpt { s.ppt with exec := some { x with phase := .readAccess } }).beginAccess .read .pp a none := by
  have hserve : s.serve .pp q = (s.setPpPhase .readAccess).beginAccess .read .pp (q.addr.getD 0#20) none := rfl
  rw [hserve, State.setPpPhase_some hx, ha]
  rfl

theorem State.serve_port {p : SpId} {a : Addr} {b : Burst} (ha : q.addr = some a) (hb : (s.sp p).burst = some b) :
    s.serve (portRequester p.port) q =
      (s.setSp p { s.sp p with burst := some { b with phase := .readAccess } }).beginAccess .read (portRequester p.port) a
        none := by
  have hserve : s.serve (portRequester p.port) q =
      (s.burstGranted p).beginAccess .read (portRequester p.port) (q.addr.getD 0#20) none := by
    cases p <;> rfl
  have hburst : s.burstGranted p = s.setSp p { s.sp p with burst := some { b with phase := .readAccess } } := by
    simp only [State.burstGranted, hb]
    rfl
  rw [hserve, hburst, ha]
  rfl

section
variable {e : Fin 8}

theorem State.serve_readWait (he : s.mb.drain.entry = some e) (hph : s.mb.drain.phase = .readWait) :
    s.serve .dr q =
      (s.setMb { s.mb.setEntry e { s.mb.entry e with state := .reading } with
        drain := { phase := .readAccess, entry := some e } }).beginAccess .read .dr (s.mb.entry e).addr none := by
  simp only [State.serve, State.grantDrain, he, hph]

theorem State.serve_writeWait (he : s.mb.drain.entry = some e) (hph : s.mb.drain.phase = .writeWait) :
    s.serve .dr q =
      (s.setMb { s.mb.setEntry e { s.mb.entry e with state := .writing, reopened := false } with
        drain := { phase := .writeAccess, entry := some e } }).beginAccess .write .dr (s.mb.entry e).addr
          (some (s.mb.entry e).data) := by
  simp only [State.serve, State.grantDrain, he, hph]

theorem State.serve_resolveWait (he : s.mb.drain.entry = some e) (hph : s.mb.drain.phase = .resolveWait) :
    s.serve .dr q =
      (s.setMb { s.mb.setEntry e { s.mb.entry e with state := .writing, reopened := false, resolvePending := false } with
        drain := { phase := .resolveAccess, entry := some e } }).beginAccess .write .dr (s.mb.entry e).addr
          (some (s.mb.entry e).data) := by
  simp only [State.serve, State.grantDrain, he, hph]

end

theorem State.serve_atomic {older younger : List LockEntry} {e : LockEntry} (h : s.wlt = older ++ e :: younger)
    (he : e.state = .waitGrant) (ho : ∀ x ∈ older, x.state ≠ .waitGrant) :
    s.serve .ae q = (s.setLockState e.port .inArray).beginAccess .paired .ae e.addr none := by
  have hfind : s.wlt.find? (·.state == .waitGrant) = some e :=
    find?_of_split h (fun x hx => by simpa using ho x hx) (by simp [he])
  simp only [State.serve, State.grantAtomic, hfind]

theorem State.serve_patrol (h : s.sce.state = .patrolRequest) :
    s.serve .sc q =
      (s.setSce { s.sce with state := .patrolAccess }).beginAccess .paired .sc s.sce.patrolPtr none := by
  simp only [State.serve, State.grantScrub, h]

theorem State.serve_fill (h : s.sce.state = .fillRequest) :
    s.serve .sc q =
      (s.setSce { s.sce with state := .fillAccess }).beginAccess .write .sc s.sce.fillPtr (some s.sce.fillPattern) := by
  simp only [State.serve, State.grantScrub, h]

theorem State.setAif_sameBut (s : State) (x : Aif) : s.sameBut (s.setAif x) [.aif] := fun b hb => by
  cases b <;> first | rfl | simp at hb

/-- Settles O38: the tiers, the ring's table, the rows that change nothing, and the winner's part. -/
theorem arrayGrant : Obligations.ArrayGrant := by
  unfold Obligations.ArrayGrant
  refine ⟨fun s => ?_, by decide, fun s h => ?_, fun s r tier3 q hr hidle hwork hquiet hw hq => ?_⟩
  · intro ready urgent ring
    refine ⟨?_, ?_, State.winner_of_urgent, fun h => ⟨State.winner_of_bypass h, fun h16 => ⟨?_, fun hnone => ?_⟩⟩⟩
    · cases s.sce.state <;> simp [ScrubState.fillMode]
    · cases s.sce.state <;> simp [ScrubState.patrolMode]
    · intro before r after hring hready hbefore
      have hfind : ring.find? s.grantable = some r := find?_of_split hring
        (fun x hx => Bool.eq_false_iff.2 fun hg => hbefore x hx (State.grantable_iff.1 hg)) (State.grantable_iff.2 hready)
      rw [State.winner_of_not_bypass h h16, hfind]
    · have hfind : ring.find? s.grantable = none :=
        List.find?_eq_none.2 fun x hx hg => hnone x hx (State.grantable_iff.1 hg)
      have hwin := State.winner_of_not_bypass h h16
      rw [hfind] at hwin
      refine ⟨fun hsc hp => hwin.trans (if_pos ?_), fun hno => hwin.trans (if_neg fun hc => hno ?_)⟩
      · exact Bool.and_eq_true_iff.2 ⟨State.grantable_iff.2 hsc, hp⟩
      · obtain ⟨hg, hp⟩ := Bool.and_eq_true_iff.1 hc
        exact ⟨State.grantable_iff.1 hg, hp⟩
  · refine congrArg Host.Outcome.next (State.internal_of_not_condition (d := .grant) (Bool.eq_false_iff.2 fun hc => ?_))
    obtain ⟨hidle, hwin, hquiet, hwork⟩ := State.grantDue_iff.1 hc
    rcases h with h | h | h | ⟨hback, hne⟩
    · exact h hidle
    · exact hwin h
    · exact hquiet h
    · exact hwork.elim (fun hno => by simp [hback] at hno) hne
  · have hdue : s.dueCondition .grant = true :=
      State.grantDue_iff.2 ⟨hidle, by simp [hw], hquiet, hwork.symm⟩
    have hgo : s.internal .grant = (s.arbGrant r tier3).serve r q :=
      (State.internal_grant hr hdue).trans (State.grant_eq_serve hw hq)
    intro begun
    have harb := ((s.arbGrant r tier3).serve_arb r q)
    refine ⟨_, congrArg Host.Outcome.next hgo, harb.trans (s.arbGrant_arb r tier3), ?_, ?_, ?_, ?_, ?_, ?_⟩
    · rintro a x rfl ha hx
      rw [harb]
      exact State.serve_pp (s := s.arbGrant .pp tier3) ha hx
    · rintro p a b rfl ha hb
      cases p with
      | sp0 => exact (State.serve_port (p := .sp0) (s := s.arbGrant .sp0 tier3) ha hb).trans (by rw [harb]; rfl)
      | sp1 => exact (State.serve_port (p := .sp1) (s := s.arbGrant .sp1 tier3) ha hb).trans (by rw [harb]; rfl)
    · rintro e rfl he
      rw [harb]
      exact ⟨fun hph => State.serve_readWait (s := s.arbGrant .dr tier3) he hph,
        fun hph => State.serve_writeWait (s := s.arbGrant .dr tier3) he hph,
        fun hph => State.serve_resolveWait (s := s.arbGrant .dr tier3) he hph⟩
    · rintro older e younger rfl hsplit hst ho
      have hserve := State.serve_atomic (s := s.arbGrant .ae tier3) (q := q) hsplit hst ho
      rw [hserve]
      refine ⟨rfl, ?_, rfl⟩
      exact ((s.setArb_sameBut _).then (State.setWlt_sameBut _ _) (cs := [.arb, .wlt]) (by simp) (by simp)).then
        (State.setAif_sameBut _ _) (by simp) (by simp)
    · rintro rfl hst
      rw [harb]
      exact State.serve_patrol (s := s.arbGrant .sc tier3) hst
    · rintro rfl hst
      rw [harb]
      exact State.serve_fill (s := s.arbGrant .sc tier3) hst

end Sys2Proof.Machine
end

section
/-! PP_READ_COMPLETION and STREAM_READ_COMPLETION (R117, R118, R133, R143 to R145). -/

namespace Sys2Proof.Machine

variable {s : State} {a : Access} {p : SpId} {b : Burst}

/-! ### The end of a read (R13, R118, R144) -/

theorem State.inFlight_eq_some {st : AifState} {r : Requester} (hst : s.aif.state = st) (ha : s.aif.access = some a)
    (hr : a.requester = r) : s.inFlight st r = some a := by
  simp [State.inFlight, hst, ha, hr]

theorem State.inFlight_other {st : AifState} {r : Requester} (ha : s.aif.access = some a) (hr : a.requester ≠ r) :
    s.inFlight st r = none := by
  simp [State.inFlight, ha, hr]

/-- A completion row, when its access is in flight. -/
theorem State.complete_of_inFlight {st : AifState} {r : Requester} (hr : s.resetAsserted = false)
    (h : s.eventStart.inFlight st r = some a) (f : State → Access → State) : s.complete st r f = f s.eventStart a := by
  rw [State.complete, State.outside_of_release hr, h]

/-- Counts and record of a read go to the error log alone. -/
theorem State.reportRead_eq (s : State) (o : DecodeOutcome) (src : Source) (w : Addr) (k : AccessType)
    (g : Option Tag) : s.reportRead o src w k g = { s with elog := (s.reportRead o src w k g).elog } := by
  obtain ⟨l, hl⟩ := s.reportRead_elog o src w k g
  rw [hl]
  rfl

/-- The state after a port's read: the interface IDLE, counts and record made. -/
def State.readEnded (s : State) (a : Access) (src : Source) (tag : Tag) : State :=
  { s with
    aif := { state := .idle, access := none }
    own := { s.own with backToIdle := true }
    elog := (s.reportRead (s.readArray a.addr).2 src a.addr .read (some tag)).elog }

theorem State.reportRead_endAccess (s : State) (a : Access) (src : Source) (tag : Tag) :
    (s.reportRead (s.readArray a.addr).2 src a.addr .read (some tag)).endAccess = s.readEnded a src tag := by
  rw [State.reportRead_eq]
  rfl

theorem State.readEnded_sp (s : State) (a : Access) (src : Source) (tag : Tag) (q : SpId) :
    (s.readEnded a src tag).sp q = s.sp q := by
  cases q <;> rfl

theorem State.request_of_arb {x : Arbiter} (h : s.arb = x) (r : Requester) (k : AccessKind) (w : Addr) :
    s.request r k w =
      { s with arb := { x with slots := x.slots.put r (some { kind := k, addr := some w }) } } := by
  rw [← h]
  rfl

/-! ### The overlay (R30, R31) -/

theorem getLsbD_overlayLanes (under top : Word) (m : LaneMask) {k : Nat} (hk : k < 32) :
    (overlayLanes under top m).getLsbD k = if m.getLsbD (k / 8) then top.getLsbD k else under.getLsbD k := by
  have hbits : (laneBits m).getLsbD k = m.getLsbD (k / 8) := getLsbD_laneBits m ⟨k, hk⟩
  rw [overlayLanes, BitVec.getLsbD_or, BitVec.getLsbD_and, BitVec.getLsbD_and, BitVec.getLsbD_not, hbits]
  cases m.getLsbD (k / 8) <;> simp [hk]

theorem State.mbOverlay_of_none {w : Addr} (h : s.mb.entryFor w = none) (need : LaneMask) (read : Word × DecodeOutcome) :
    s.mbOverlay w need read = read := by
  rw [State.mbOverlay, h]

theorem State.mbOverlay_of_some {w : Addr} {e : Fin 8} (h : s.mb.entryFor w = some e) (need : LaneMask)
    (read : Word × DecodeOutcome) :
    s.mbOverlay w need read =
      (overlayLanes read.1 (s.mb.entry e).data ((s.mb.entry e).mask &&& need),
       if (s.mb.entry e).mask &&& need = need then .clean else read.2) := by
  simp only [State.mbOverlay, h, covers, beq_iff_eq]

/-- Settles O43, by the equation of the read's end and the entry the word's lookup finds. -/
theorem ppReadCompletion : Obligations.PpReadCompletion := by
  unfold Obligations.PpReadCompletion
  refine ⟨fun s a x hr haif hreq hx => congrArg Host.Outcome.next ?_, fun s w need read => ⟨fun hfree => ?_, ?_⟩⟩
  · have hin : s.eventStart.inFlight .reading .pp = some a := State.inFlight_eq_some (by rw [haif]) (by rw [haif]) hreq
    rw [State.complete_of_inFlight hr hin]
    simp only [State.ppReadDone, hx, State.reportRead_endAccess]
    exact State.ppComplete_some (s := s.eventStart.readEnded a .pp x.req.tag) hx _ _
  · exact State.mbOverlay_of_none (MergeBuffer.entryFor_of_none hfree) need read
  · intro e hne haddr hunique
    rw [State.mbOverlay_of_some (MergeBuffer.entryFor_of_unique hne haddr hunique)]
    exact ⟨fun k hk => getLsbD_overlayLanes _ _ _ hk, fun h => if_pos h, fun h => if_neg h⟩

/-! ### The stream ports (R133, R143 to R145) -/

theorem streamReadCompletion_next (hr : s.resetAsserted = false)
    (haif : s.eventStart.aif = { state := .reading, access := some a }) (hreq : a.requester = portRequester p.port) :
    exec .streamReadCompletion s = .next (s.eventStart.streamReadDone p a) := by
  have hin : s.eventStart.inFlight .reading (portRequester p.port) = some a :=
    State.inFlight_eq_some (by rw [haif]) (by rw [haif]) hreq
  refine congrArg Host.Outcome.next ((State.outside_of_release hr _).trans ?_)
  cases p with
  | sp0 =>
    have h0 : s.eventStart.inFlight .reading .sp0 = some a := hin
    rw [h0]
  | sp1 =>
    have h0 : s.eventStart.inFlight .reading .sp0 = none :=
      State.inFlight_other (a := a) (by rw [haif]) (by rw [hreq]; decide)
    have h1 : s.eventStart.inFlight .reading .sp1 = some a := hin
    rw [h0, h1]

/-- A delivered word: its beat is sent and the burst ends or goes on. -/
theorem State.readDelivered_eq (hb : (s.sp p).burst = some b) (d : Word) (o : DecodeOutcome) :
    s.readDelivered p d o =
      if o = .uncorrectable then
        s.setSp p
          ((((s.sp p).beatSent b d o.beatStatus).stopped .uncorrectable).ended b.hdr.tag
            (if b.aborted then .aborted else .uncorrectable) (b.done + 1))
      else if b.aborted then s.setSp p (((s.sp p).beatSent b d o.beatStatus).ended b.hdr.tag .aborted (b.done + 1))
      else if b.done + 1 = b.hdr.length then
        s.setSp p (((s.sp p).beatSent b d o.beatStatus).ended b.hdr.tag .ok (b.done + 1))
      else (s.setSp p ((s.sp p).beatSent b d o.beatStatus)).readOn p := by
  simp only [State.readDelivered, hb, State.send_setBurst_beat, State.endBurst_beatSent, State.suspend_eq_stopped,
    State.setSp_sp_same, State.setSp_setSp]
  split
  · have hburst :
        ((s.setSp p (((s.sp p).beatSent b d o.beatStatus).stopped .uncorrectable)).sp p).burst =
          some { b with done := b.done + 1 } := by
      rw [State.setSp_sp_same, StreamPort.stopped_burst]
      rfl
    rw [State.endBurst_eq_ended hburst, State.setSp_sp_same, State.setSp_setSp]
  · rfl

theorem State.streamReadDone_of_burst (hd : (s.sp p).discardedRead = none) (hb : (s.sp p).burst = some b) :
    s.streamReadDone p a =
      (s.readEnded a (portSource p.port) b.hdr.tag).readDelivered p
        (s.mbOverlay a.addr 15#4 (s.readArray a.addr)).1 (s.mbOverlay a.addr 15#4 (s.readArray a.addr)).2 := by
  simp only [State.streamReadDone, hd, hb, State.reportRead_endAccess]

/-- The state after a discarded read: the access ended and the flag cleared. -/
def State.discardCleared (s : State) (p : SpId) (a : Access) (tag : Tag) : State :=
  (s.readEnded a (portSource p.port) tag).setSp p { s.sp p with discardedRead := none }

theorem State.discardCleared_arb (s : State) (p : SpId) (a : Access) (tag : Tag) :
    (s.discardCleared p a tag).arb = s.arb := by
  rw [State.discardCleared, State.setSp_arb]
  rfl

theorem State.streamReadDone_of_discarded_idle {tag : Tag} (hd : (s.sp p).discardedRead = some tag)
    (hb : (s.sp p).burst = none) : s.streamReadDone p a = s.discardCleared p a tag := by
  simp only [State.streamReadDone, hd, State.discardedReadDone, State.reportRead_endAccess, State.readEnded_sp,
    State.setSp_sp_same, hb, State.discardCleared]

theorem State.streamReadDone_of_discarded_burst {tag : Tag} (hd : (s.sp p).discardedRead = some tag)
    (hb : (s.sp p).burst = some b) :
    s.streamReadDone p a =
      if b.phase = .readWait ∧ (s.arb.slots.get (portRequester p.port)).isNone = true then
        (s.discardCleared p a tag).request (portRequester p.port) .read b.word
      else s.discardCleared p a tag := by
  rw [← State.discardCleared_arb s p a tag]
  simp only [State.streamReadDone, hd, State.discardedReadDone, State.reportRead_endAccess, State.readEnded_sp,
    State.setSp_sp_same, hb, State.discardCleared]

/-- Settles O44, by the port whose read is in flight, then by the discarded-read flag. -/
theorem streamReadCompletion : Obligations.StreamReadCompletion := by
  unfold Obligations.StreamReadCompletion
  refine ⟨⟨rfl, fun _ => rfl, rfl⟩, ?_⟩
  intro s p a hr u haif hreq read ended
  rw [streamReadCompletion_next hr haif hreq]
  refine ⟨?_, ?_⟩
  · intro b hd hb given done tag sent
    have hdone : u.streamReadDone p a = (ended tag).readDelivered p given.1 given.2 :=
      State.streamReadDone_of_burst hd hb
    have hsp : (ended tag).sp p = u.sp p := u.readEnded_sp a _ _ p
    have hburst : ((ended tag).sp p).burst = some b := by rw [hsp, hb]
    have hsent : ((ended tag).sp p).beatSent b given.1 given.2.beatStatus = sent := by rw [hsp]; rfl
    rw [hdone, State.readDelivered_eq hburst, hsent]
    refine ⟨fun ho => ?_, fun ho hab => ?_, fun ho hab hlast => ?_, fun ho hab hlast => ?_⟩
    · rw [if_pos ho]
    · rw [if_neg ho, if_pos hab]
    · rw [if_neg ho, if_neg (by simp [hab]), if_pos hlast]
    · rw [if_neg ho, if_neg (by simp [hab]), if_neg hlast]
  · intro tag hd cleared
    refine ⟨fun hnone => ?_, fun b hb hph hslot => ?_⟩
    · cases hb : (u.sp p).burst with
      | none => exact congrArg Host.Outcome.next (State.streamReadDone_of_discarded_idle hd hb)
      | some b =>
        rw [State.streamReadDone_of_discarded_burst hd hb, if_neg fun h => hnone b hb h.1]
        rfl
    · have harb : (u.discardCleared p a tag).arb = u.arb := u.discardCleared_arb p a tag
      rw [State.streamReadDone_of_discarded_burst hd hb, if_pos ⟨hph, Option.isNone_iff_eq_none.2 hslot⟩,
        State.request_of_arb harb]
      rfl

end Sys2Proof.Machine
end

section
/-! The completions of the drain, the atomic and the scrub engine (R37 to R39, R61 to R63, R162, R163, R167). -/

namespace Sys2Proof.Machine

variable {s u v : State} {a : Access} {e : Fin 8} {x : Entry} {o : DecodeOutcome}

/-! ### Records (R182) -/

/-- What the log becomes depends on the log alone. -/
theorem State.logRecord_elog_congr (h : u.elog = s.elog) (r : ErrorRecord) :
    (u.logRecord r).elog = (s.logRecord r).elog := by
  unfold State.logRecord
  rw [h]
  split <;> rfl

theorem State.logRecord_counts (s : State) (r : ErrorRecord) :
    (s.logRecord r).elog.cntCorrected = s.elog.cntCorrected ∧
      (s.logRecord r).elog.cntUncorrectable = s.elog.cntUncorrectable := by
  unfold State.logRecord
  split <;> exact ⟨rfl, rfl⟩

theorem State.logRecord_eq (s : State) (r : ErrorRecord) : s.logRecord r = { s with elog := (s.logRecord r).elog } := by
  obtain ⟨l, hl⟩ := s.logRecord_elog r
  rw [hl]
  rfl

/-! ### A word stored (R7, R14, R15) -/

theorem StoredAndIdle.of_array {w : Addr} {d : Word} (ha : v.array = (u.storeWord w d).array)
    (hi : v.aif = { state := .idle, access := none }) : StoredAndIdle u v w d := by
  have hword : ∀ y, v.wordAt y = (u.storeWord w d).wordAt y := fun y => by rw [State.wordAt, ha]; rfl
  exact ⟨(hword w).trans (State.storeWord_wordAt_same u w d),
    fun y hy => (hword y).trans (State.storeWord_wordAt_other u d hy), hi⟩

/-- The state after a write's completion: the word stored and the interface IDLE. -/
def State.writeEnded (s : State) (w : Addr) (d : Word) : State := (s.storeWord w d).endAccess

theorem State.writeEnded_stored (s : State) (w : Addr) (d : Word) : StoredAndIdle s (s.writeEnded w d) w d :=
  .of_array rfl rfl

theorem State.writeEnded_sameBut (s : State) (w : Addr) (d : Word) : s.sameBut (s.writeEnded w d) [.array, .aif, .own] :=
  fun b hb => by cases b <;> first | rfl | simp at hb

/-! ### The drain engine's read (R37, R38) -/

/-- The state after a drain read, before the entry changes: the outcome counted, the access ended, and the record made
when a lane was missing. -/
def State.drainReported (s : State) (e : Fin 8) (x : Entry) (o : DecodeOutcome) : State :=
  if x.mask = 15#4 then (s.countOutcome o).endAccess else (s.countOutcome o).endAccess.drainRecord e x o

theorem State.countOutcome_eq (s : State) (o : DecodeOutcome) :
    s.countOutcome o = { s with elog := (s.countOutcome o).elog } := by
  cases o <;> rfl

theorem State.drainRecord_eq (s : State) (e : Fin 8) (x : Entry) (o : DecodeOutcome) :
    s.drainRecord e x o = { s with elog := (s.drainRecord e x o).elog } := by
  cases o with
  | clean => rfl
  | corrected pos =>
    unfold State.drainRecord State.recordOutcome
    dsimp only
    split
    · exact State.logRecord_eq _ _
    · rfl
  | uncorrectable => exact State.logRecord_eq _ _

theorem State.drainRecord_counts (s : State) (e : Fin 8) (x : Entry) (o : DecodeOutcome) :
    (s.drainRecord e x o).elog.cntCorrected = s.elog.cntCorrected ∧
      (s.drainRecord e x o).elog.cntUncorrectable = s.elog.cntUncorrectable := by
  cases o with
  | clean => exact ⟨rfl, rfl⟩
  | corrected pos =>
    unfold State.drainRecord State.recordOutcome
    dsimp only
    split
    · exact State.logRecord_counts _ _
    · exact ⟨rfl, rfl⟩
  | uncorrectable => exact State.logRecord_counts _ _

theorem State.drainReported_eq (s : State) (e : Fin 8) (x : Entry) (o : DecodeOutcome) :
    s.drainReported e x o =
      { s with
        aif := { state := .idle, access := none }
        own := { s.own with backToIdle := true }
        elog := (s.drainReported e x o).elog } := by
  unfold State.drainReported
  split
  · rw [State.countOutcome_eq]
    rfl
  · rw [State.drainRecord_eq, State.countOutcome_eq]
    rfl

theorem State.drainReported_counts (s : State) (e : Fin 8) (x : Entry) (o : DecodeOutcome) :
    (s.drainReported e x o).elog.cntCorrected = (s.countOutcome o).elog.cntCorrected ∧
      (s.drainReported e x o).elog.cntUncorrectable = (s.countOutcome o).elog.cntUncorrectable := by
  unfold State.drainReported
  split
  · exact ⟨rfl, rfl⟩
  · exact State.drainRecord_counts _ e x o

theorem State.drainReported_of_full (h : x.mask = 15#4) : (s.drainReported e x o).elog = (s.countOutcome o).elog := by
  rw [State.drainReported, if_pos h]
  rfl

theorem State.drainReported_of_missing (h : x.mask ≠ 15#4) :
    s.drainReported e x o = (s.countOutcome o).endAccess.drainRecord e x o := if_neg h

/-- No record when no lane was missing, or of a CLEAN outcome. -/
theorem State.drainReported_records (h : x.mask = 15#4 ∨ o = .clean) :
    (s.drainReported e x o).elog.records = s.elog.records ∧ (s.drainReported e x o).elog.seq = s.elog.seq ∧
      (s.drainReported e x o).elog.overflow = s.elog.overflow := by
  by_cases hm : x.mask = 15#4
  · rw [State.drainReported_of_full hm]
    cases o <;> exact ⟨rfl, rfl, rfl⟩
  · obtain rfl := h.resolve_left hm
    rw [State.drainReported_of_missing hm]
    exact ⟨rfl, rfl, rfl⟩

/-- The record of a CORRECTED drain read, while logging is on (R37). -/
theorem State.drainReported_corrected {pos : BitVec 7} (h : x.mask ≠ 15#4) :
    let counted := s.countOutcome (.corrected pos)
    (s.cfg.logging = false → (s.drainReported e x (.corrected pos)).elog = counted.elog) ∧
    (s.cfg.logging = true →
      (s.drainReported e x (.corrected pos)).elog =
        (counted.logRecord { ErrorRecord.base .corrected .drain x.addr with pos := some pos }).elog) := by
  rw [State.drainReported_of_missing h]
  refine ⟨fun hlog => ?_, fun hlog => ?_⟩
  · exact (congrArg State.elog
      (State.recordOutcome_corrected_of_disabled (s := (s.countOutcome (.corrected pos)).endAccess) hlog pos _)).trans rfl
  · exact (congrArg State.elog
      (State.recordOutcome_corrected_of_enabled (s := (s.countOutcome (.corrected pos)).endAccess) hlog pos _)).trans
      (State.logRecord_elog_congr (by rfl) _)

theorem State.drainReported_uncorrectable (h : x.mask ≠ 15#4) :
    (s.drainReported e x .uncorrectable).elog =
      ((s.countOutcome .uncorrectable).logRecord
        { ErrorRecord.base .mergeFault .drain x.addr with entry := some e, mask := some x.mask }).elog := by
  rw [State.drainReported_of_missing h]
  exact State.logRecord_elog_congr (u := (s.countOutcome .uncorrectable).endAccess) (by rfl) _

theorem Entry.filled_eq (x : Entry) (d : Word) :
    (if x.mask = 15#4 then { x with state := .pending } else x.filled d) =
      { x with
        state := .pending
        data := if x.mask = 15#4 then x.data else overlayLanes d x.data x.mask
        mask := 15#4 } := by
  split
  · rename_i h
    rw [← h]
  · rfl

theorem State.drainReadDone_eq (he : s.mb.drain.entry = some e) :
    s.drainReadDone a = s.drainReadOf e (s.readArray a.addr) := by
  simp only [State.drainReadDone, he]

/-- The missing lanes are filled and the WRITE asked for (R37). -/
theorem State.drainReadOf_filled (read : Word × DecodeOutcome)
    (h : (s.mb.entry e).mask = 15#4 ∨ read.2 ≠ .uncorrectable) :
    s.drainReadOf e read =
      (s.drainReported e (s.mb.entry e) read.2).drainWrite e
        (if (s.mb.entry e).mask = 15#4 then { s.mb.entry e with state := .pending } else (s.mb.entry e).filled read.1) := by
  unfold State.drainReadOf State.drainReported
  by_cases hm : (s.mb.entry e).mask = 15#4
  · simp only [hm, if_true]
  · simp only [hm, if_false, h.resolve_left hm]

/-- The merge is lost (R38). -/
theorem State.drainReadOf_faulted (read : Word × DecodeOutcome) (hm : (s.mb.entry e).mask ≠ 15#4)
    (ho : read.2 = .uncorrectable) :
    s.drainReadOf e read =
      let t := s.drainReported e (s.mb.entry e) read.2
      t.setMb
        { (t.mb.setEntry e (s.mb.entry e).faulted).drainIdle with
          faultedCount := if (s.mb.entry e).flushBound then t.mb.faultedCount + 1 else t.mb.faultedCount } := by
  unfold State.drainReadOf State.drainReported
  simp only [hm, if_false, ho, if_true]

/-- Past counts and record, a drain read changes the buffer, and asks the arbiter. -/
theorem State.drainReadOf_sameBut (s : State) (e : Fin 8) (read : Word × DecodeOutcome) :
    (s.drainReported e (s.mb.entry e) read.2).sameBut (s.drainReadOf e read) [.mb, .arb] := by
  by_cases h : (s.mb.entry e).mask = 15#4 ∨ read.2 ≠ .uncorrectable
  · rw [State.drainReadOf_filled read h]
    exact (State.setMb_sameBut _ _).then (State.setArb_sameBut _ _) (by simp) (by simp)
  · obtain ⟨hm, ho⟩ := not_or.1 h
    rw [State.drainReadOf_faulted read hm (not_not.1 ho)]
    exact State.sameBut_mono (State.setMb_sameBut _ _) (by simp)

/-- The counts of a drain read's outcome (R182). -/
theorem State.drainReadOf_counts (s : State) (e : Fin 8) (read : Word × DecodeOutcome) :
    (s.drainReadOf e read).elog.cntCorrected = (s.countOutcome read.2).elog.cntCorrected ∧
      (s.drainReadOf e read).elog.cntUncorrectable = (s.countOutcome read.2).elog.cntUncorrectable := by
  have helog : (s.drainReadOf e read).elog = _ := s.drainReadOf_sameBut e read .elog (by simp)
  rw [helog]
  exact s.drainReported_counts e _ read.2

/-! ### The drain engine's write (R39, R44) -/

theorem MergeBuffer.written_of_reopened {mb : MergeBuffer} (h : (mb.entry e).reopened = true) :
    mb.written e = { mb.setEntry e (mb.entry e).reopen with drain := { phase := .idle, entry := none } } := if_pos h

theorem MergeBuffer.written_of_done {mb : MergeBuffer} (h : (mb.entry e).reopened = false) :
    mb.written e =
      { mb.setEntry e Entry.default with
        age := mb.age.filter (· != e), drain := { phase := .idle, entry := none } } := if_neg (by simp [h])

theorem State.drainWriteDone_eq (he : s.mb.drain.entry = some e) {d : Word} (hd : a.writeData = some d) :
    s.drainWriteDone a = (s.writeEnded a.addr d).setMb (s.mb.written e) := by
  have hend : ((s.storeWord a.addr d).endAccess).mb.drain.entry = some e := he
  simp only [State.drainWriteDone, hd, Option.getD_some, hend, State.writeEnded]
  rfl

/-- Settles O45: the read by the lanes missing and the outcome, the write by the reopened mark. -/
theorem drainCompletions : Obligations.DrainCompletions := by
  unfold Obligations.DrainCompletions
  intro s a e hr u x hacc hreq hentry
  refine ⟨?_, fun d hst hd => ?_⟩
  · intro hst read
    have hnext : exec .drainReadCompletion s = .next (u.drainReadOf e read) :=
      congrArg Host.Outcome.next
        ((State.complete_of_inFlight hr (State.inFlight_eq_some hst hacc hreq) State.drainReadDone).trans
          (State.drainReadDone_eq hentry))
    have hrep := u.drainReported_eq e x read.2
    have hrest := u.drainReadOf_sameBut e read
    have helog : (u.drainReadOf e read).elog = (u.drainReported e x read.2).elog := hrest .elog (by simp)
    obtain ⟨hcor, hunc⟩ := u.drainReadOf_counts e read
    refine ⟨u.drainReadOf e read, hnext, ?_, ?_, ?_, ?_, fun h => ?_, fun h => ?_, fun pos hm ho => ?_, fun hm ho => ?_⟩
    · exact (hrest .aif (by simp)).trans (by rw [hrep])
    · have hreported : u.sameBut (u.drainReported e x read.2) [.aif, .own, .elog] := by
        rw [hrep]
        exact fun b hb => by cases b <;> first | rfl | simp at hb
      exact hreported.then hrest (by simp) (by simp)
    · rw [hcor]
      cases read.2 <;> rfl
    · rw [hunc]
      cases read.2 <;> rfl
    · rw [State.drainReadOf_filled read h, Entry.filled_eq, hrep]
      exact ⟨rfl, rfl⟩
    · rw [helog]
      exact State.drainReported_records h
    · rw [helog, ho]
      exact State.drainReported_corrected hm
    · rw [helog, ho, State.drainReadOf_faulted read hm ho, hrep]
      exact ⟨rfl, rfl, State.drainReported_uncorrectable hm⟩
  · have hnext : exec .drainWriteCompletion s = .next ((u.writeEnded a.addr d).setMb (u.mb.written e)) :=
      congrArg Host.Outcome.next
        ((State.complete_of_inFlight hr (State.inFlight_eq_some hst hacc hreq) State.drainWriteDone).trans
          (State.drainWriteDone_eq hentry hd))
    refine ⟨_, hnext, .of_array rfl rfl,
      ((u.writeEnded_sameBut a.addr d).then (State.setMb_sameBut _ _) (by simp) (by simp)), fun hre => ?_, fun hre => ?_⟩
    · exact MergeBuffer.written_of_reopened hre
    · exact MergeBuffer.written_of_done hre

/-! ### The atomic engine (R61 to R63, R66) -/

section Atomic

variable {l : LockEntry}

theorem State.lockInArray_of_split {older younger : List LockEntry} (h : s.wlt = older ++ l :: younger)
    (hl : l.state = .inArray) (ho : ∀ y ∈ older, y.state ≠ .inArray) : s.lockInArray = some l :=
  find?_of_split h (fun y hy => by simpa using ho y hy) (by simp [hl])

theorem State.atomicReadDone_eq (h : s.lockInArray = some l) : s.atomicReadDone a = s.atomicReadOf a l := by
  simp only [State.atomicReadDone, h]

theorem State.atomicReadOf_uncorrectable (h : (s.readArray a.addr).2 = .uncorrectable) :
    s.atomicReadOf a l =
      (s.reportRead (s.readArray a.addr).2 (portSource l.port) a.addr .atomic (some l.tag)).endAccess.removeLock l
        (some
          { status := .uncorrectable, old := (s.readArray a.addr).1, outcome := (s.readArray a.addr).2 }) := if_pos h

theorem State.atomicReadOf_value (h : (s.readArray a.addr).2 ≠ .uncorrectable) {d : Word}
    (hd : l.op.newValue l.opA l.opB (s.readArray a.addr).1 = some d) :
    s.atomicReadOf a l =
      (s.reportRead (s.readArray a.addr).2 (portSource l.port) a.addr .atomic (some l.tag)).pairedWrite a
        (s.readArray a.addr) d := by
  simp only [State.atomicReadOf, if_neg h, hd]

theorem State.atomicReadOf_failed (h : (s.readArray a.addr).2 ≠ .uncorrectable)
    (hd : l.op.newValue l.opA l.opB (s.readArray a.addr).1 = none) :
    s.atomicReadOf a l =
      (s.reportRead (s.readArray a.addr).2 (portSource l.port) a.addr .atomic (some l.tag)).endAccess.removeLock l
        (some { status := .casFailed, old := (s.readArray a.addr).1, outcome := (s.readArray a.addr).2 }) := by
  simp only [State.atomicReadOf, if_neg h, hd]

theorem State.atomicWriteDone_eq (h : s.lockInArray = some l) {d old : Word} (hd : a.writeData = some d)
    (hold : a.readData = some old) (ho : a.outcome = some o) :
    s.atomicWriteDone a =
      (s.writeEnded a.addr d).removeLock l (some { status := .done, old := old, outcome := o }) := by
  have hlock : (s.storeWord a.addr d).endAccess.lockInArray = some l := h
  simp only [State.atomicWriteDone, hd, hold, ho, Option.getD_some, hlock, State.writeEnded]

/-- Settles O46, by the outcome and the new value. -/
theorem atomicCompletions : Obligations.AtomicCompletions := by
  unfold Obligations.AtomicCompletions
  refine ⟨?_, fun x old y => ⟨rfl, rfl, rfl, rfl, fun h => if_pos h, fun h => if_neg h⟩⟩
  intro s a older younger l hr u hacc hreq hwlt hl holder
  have hlock : u.lockInArray = some l := State.lockInArray_of_split hwlt hl holder
  refine ⟨?_, fun d old o hst hd hold ho => ?_⟩
  · intro hst read reported ended
    have hnext : exec .atomicReadCompletion s = .next (u.atomicReadOf a l) :=
      congrArg Host.Outcome.next
        ((State.complete_of_inFlight hr (State.inFlight_eq_some hst hacc hreq) State.atomicReadDone).trans
          (State.atomicReadDone_eq hlock))
    have hreported : u.reportRead read.2 (portSource l.port) a.addr .atomic (some l.tag) = reported :=
      u.reportRead_eq read.2 (portSource l.port) a.addr .atomic (some l.tag)
    rw [hnext]
    refine ⟨fun hunc => ?_, fun hok => ⟨fun d hd => ?_, fun hd => ?_⟩⟩
    · rw [State.atomicReadOf_uncorrectable hunc, hreported]
      rfl
    · rw [State.atomicReadOf_value hok hd, hreported]
      rfl
    · rw [State.atomicReadOf_failed hok hd, hreported]
      rfl
  · exact ⟨u.writeEnded a.addr d,
      congrArg Host.Outcome.next
        ((State.complete_of_inFlight hr (State.inFlight_eq_some hst hacc hreq) State.atomicWriteDone).trans
          (State.atomicWriteDone_eq hlock hd hold ho)),
      u.writeEnded_stored a.addr d, u.writeEnded_sameBut a.addr d⟩

end Atomic

/-! ### The patrol (R162, R163) -/

/-- The scrub engine after a patrol visit of an array of `size` words. -/
def Scrub.visited (x : Scrub) (size : Nat) : Scrub :=
  { x with
    state := if x.stopPending then .idle else .patrolWait
    stopPending := false
    intervalCount := if x.stopPending then x.intervalCount else 0
    intervalDue := false
    patrolPtr := if x.patrolPtr.toNat + 1 = size then 0#20 else x.patrolPtr + 1
    passes := if x.patrolPtr.toNat + 1 = size then x.passes + 1 else x.passes }

theorem State.patrolEnd_eq (s : State) :
    s.patrolEnd =
      { s with
        sce := s.sce.visited s.cfg.size
        irq := if s.sce.patrolPtr.toNat + 1 = s.cfg.size then { s.irq with scrubPass := true } else s.irq } := by
  have hend : s.patrolEnd =
      if s.sce.patrolPtr.toNat + 1 = s.cfg.size then
        (s.setSce (s.sce.visited s.cfg.size)).setIrq { s.irq with scrubPass := true }
      else s.setSce (s.sce.visited s.cfg.size) := rfl
  rw [hend]
  split <;> rfl

theorem MergeBuffer.faultedFor_iff {mb : MergeBuffer} {w : Addr} :
    mb.faultedFor w = false ↔ ∀ e, ¬ ((mb.entry e).state = .faulted ∧ (mb.entry e).addr = w) := by
  simp [MergeBuffer.faultedFor, MergeBuffer.anyEntry_eq_false]

/-- A CORRECTED word that no FAULTED entry holds is written back. -/
theorem State.patrolReadDone_of_repaired {pos : BitVec 7} (ho : (s.readArray a.addr).2 = .corrected pos)
    (hf : s.mb.faultedFor a.addr = false) :
    s.patrolReadDone a =
      (s.reportRead (s.readArray a.addr).2 .scrub a.addr .patrol none).pairedWrite a (s.readArray a.addr)
        (s.readArray a.addr).1 := by
  simp only [State.patrolReadDone, ho, hf, Bool.false_eq_true, if_false]

theorem State.patrolReadDone_of_not_repaired
    (h : ∀ pos, (s.readArray a.addr).2 = .corrected pos → s.mb.faultedFor a.addr = true) :
    s.patrolReadDone a = (s.reportRead (s.readArray a.addr).2 .scrub a.addr .patrol none).endAccess.patrolEnd := by
  unfold State.patrolReadDone
  dsimp only
  cases ho : (s.readArray a.addr).2 with
  | clean | uncorrectable => rfl
  | corrected pos => exact if_pos (h pos ho)

theorem State.patrolWriteDone_eq {d : Word} (hd : a.writeData = some d) :
    s.patrolWriteDone a = (s.writeEnded a.addr d).patrolEnd := by
  simp only [State.patrolWriteDone, hd, Option.getD_some, State.writeEnded]

/-! ### The fill (R167) -/

theorem State.fillWriteDone_eq {d : Word} (hd : a.writeData = some d) :
    s.fillWriteDone a = (s.writeEnded a.addr d).fillNext := by
  simp only [State.fillWriteDone, hd, Option.getD_some, State.writeEnded]

theorem State.fillNext_last (h : s.sce.fillPtr = s.sce.fillLast) :
    s.fillNext =
      { s with
        sce := { s.sce with state := .idle, stopPending := false, fillResult := .done }
        irq := { s.irq with fillDone := true } } := if_pos h

theorem State.fillNext_stopped (h : s.sce.fillPtr ≠ s.sce.fillLast) (hs : s.sce.stopPending = true) :
    s.fillNext =
      { s with
        sce :=
          { s.sce with
            state := .idle, stopPending := false, fillResult := .stopped, fillPtr := s.sce.fillPtr + 1 } } :=
  (if_neg h).trans (if_pos hs)

theorem State.fillNext_on (h : s.sce.fillPtr ≠ s.sce.fillLast) (hs : s.sce.stopPending = false) :
    s.fillNext =
      { s with
        sce := { s.sce with state := .fillRequest, fillPtr := s.sce.fillPtr + 1 }
        arb :=
          { s.arb with
            slots := { s.arb.slots with sc := some { kind := .write, addr := some (s.sce.fillPtr + 1) } } } } :=
  (if_neg h).trans (if_neg (by simp [hs]))

theorem State.fillNext_sameBut (s : State) : s.sameBut s.fillNext [.sce, .irq, .arb] := by
  intro b hb
  by_cases h : s.sce.fillPtr = s.sce.fillLast
  · rw [State.fillNext_last h]
    cases b <;> first | rfl | simp at hb
  · cases hs : s.sce.stopPending with
    | true =>
      rw [State.fillNext_stopped h hs]
      cases b <;> first | rfl | simp at hb
    | false =>
      rw [State.fillNext_on h hs]
      cases b <;> first | rfl | simp at hb

/-- Settles O47, by the outcome of the patrol's read and by the fill's pointer and its stop flag. -/
theorem scrubCompletions : Obligations.ScrubCompletions := by
  unfold Obligations.ScrubCompletions
  intro s a hr u hacc hreq top visited passed
  refine ⟨?_, fun d hst hd => ?_, fun d hst hd => ?_⟩
  · intro hst read reported repaired
    have hnext : exec .patrolReadCompletion s = .next (u.patrolReadDone a) :=
      congrArg Host.Outcome.next
        (State.complete_of_inFlight hr (State.inFlight_eq_some hst hacc hreq) State.patrolReadDone)
    have hreported : u.reportRead read.2 .scrub a.addr .patrol none = reported :=
      u.reportRead_eq read.2 .scrub a.addr .patrol none
    rw [hnext]
    refine ⟨fun ⟨⟨pos, ho⟩, hfree⟩ => ?_, fun hno => ?_⟩
    · rw [State.patrolReadDone_of_repaired ho (MergeBuffer.faultedFor_iff.2 hfree), hreported]
      rfl
    · have hfaulted : ∀ pos, read.2 = .corrected pos → u.mb.faultedFor a.addr = true := fun pos ho =>
        Bool.not_eq_false _ ▸ fun hf => hno ⟨⟨pos, ho⟩, MergeBuffer.faultedFor_iff.1 hf⟩
      rw [State.patrolReadDone_of_not_repaired hfaulted, hreported, State.patrolEnd_eq]
      rfl
  · have hnext : exec .patrolWriteCompletion s = .next (u.writeEnded a.addr d).patrolEnd :=
      congrArg Host.Outcome.next
        ((State.complete_of_inFlight hr (State.inFlight_eq_some hst hacc hreq) State.patrolWriteDone).trans
          (State.patrolWriteDone_eq hd))
    rw [State.patrolEnd_eq] at hnext
    exact ⟨_, hnext, .of_array rfl rfl, rfl, rfl, fun b hb => by cases b <;> first | rfl | simp at hb⟩
  · have hnext : exec .fillWriteCompletion s = .next (u.writeEnded a.addr d).fillNext :=
      congrArg Host.Outcome.next
        ((State.complete_of_inFlight hr (State.inFlight_eq_some hst hacc hreq) State.fillWriteDone).trans
          (State.fillWriteDone_eq hd))
    have hfill := (u.writeEnded a.addr d).fillNext_sameBut
    refine ⟨_, hnext, .of_array (hfill .array (by simp)) (hfill .aif (by simp)),
      (u.writeEnded_sameBut a.addr d).then hfill (by simp) (by simp), fun h => ?_, fun h hs => ?_, fun h hs => ?_⟩
    · rw [State.fillNext_last (s := u.writeEnded a.addr d) h]
      exact ⟨rfl, rfl, rfl⟩
    · rw [State.fillNext_stopped (s := u.writeEnded a.addr d) h hs]
      exact ⟨rfl, rfl, rfl⟩
    · rw [State.fillNext_on (s := u.writeEnded a.addr d) h hs]
      exact ⟨rfl, rfl, rfl⟩

end Sys2Proof.Machine
end

section
/-! The frames a stream port takes: WRITE_BEAT, ABORT and the discarded types, at their arrival and from the link
(R125, R127, R146, R147, R150, R154, R155, R195). -/

namespace Sys2Proof.Machine

variable {s u : State} {p : SpId} {f : Frame} {b : Burst}

/-! ### WRITE_BEAT (R57, R127, R146, R147, R150, R168) -/

theorem State.matchingBeat_iff (hb : (s.sp p).burst = some b) :
    s.matchingBeat p f = true ↔ frameType f = 2#4 ∧ b.awaiting = true ∧ beatTag f = b.hdr.tag := by
  simp [State.matchingBeat, hb, and_assoc]

/-- A beat that no burst awaits is discarded. -/
theorem State.takeBeat_of_not_matching (h : s.matchingBeat p f = false) : s.takeBeat p f = s := by
  unfold State.takeBeat
  rw [h]
  split <;> rfl

theorem State.takeBeat_of_phase (hb : (s.sp p).burst = some b) (h1 : b.phase ≠ .beatWait) (h2 : b.phase ≠ .operandWait)
    (h3 : b.phase ≠ .operandBlocked) : s.takeBeat p f = s := by
  unfold State.takeBeat
  rw [hb]
  dsimp only
  split
  · split
    · exact absurd ‹_› h1
    · exact absurd ‹_› h2
    · exact absurd ‹_› h3
    all_goals rfl
  · rfl

section Matching

variable (htype : frameType f = 2#4) (hb : (s.sp p).burst = some b) (htag : beatTag f = b.hdr.tag)
include htype hb htag

theorem State.takeBeat_of_beatWait (hph : b.phase = .beatWait) :
    s.takeBeat p f = s.takeWriteBeat p b (beatData f) (beatMask f) := by
  have hm : s.matchingBeat p f = true := (State.matchingBeat_iff hb).2 ⟨htype, by simp [Burst.awaiting, hph], htag⟩
  simp only [State.takeBeat, hb, hm, if_true, hph]

theorem State.takeBeat_of_operand (hph : b.phase = .operandWait ∨ b.phase = .operandBlocked) :
    s.takeBeat p f = s.takeOperand p b (beatData f) := by
  have hm : s.matchingBeat p f = true :=
    (State.matchingBeat_iff hb).2 ⟨htype, by rcases hph with h | h <;> simp [Burst.awaiting, h], htag⟩
  rcases hph with h | h <;> simp only [State.takeBeat, hb, hm, if_true, h]

end Matching

theorem State.takeWriteBeat_of_fenced (d : Word) (m : LaneMask) (h : s.fenced b.word = true) :
    s.takeWriteBeat p b d m =
      s.setSp p { s.sp p with burst := some { b with phase := .merge, hold := .fence, beat := some (d, m) } } := if_pos h

theorem State.takeWriteBeat_of_free (d : Word) (m : LaneMask) (h : s.fenced b.word = false) :
    s.takeWriteBeat p b d m =
      (s.setSp p { s.sp p with burst := some { b with phase := .merge, hold := .none, beat := none } }).mergeIssue
        { port := p.port, addr := b.word, data := d, mask := m } := if_neg (by simp [h])

theorem Burst.lastOperand_iff {op : AtomicOp} (hop : b.hdr.op = .atomic op) :
    b.lastOperand = true ↔ op ≠ .compareSwap ∨ b.opA ≠ none := by
  rw [Burst.lastOperand, hop]
  cases op <;> cases b.opA <;> simp

theorem State.takeOperand_of_first {op : AtomicOp} (hop : b.hdr.op = .atomic op) (h : b.lastOperand = false)
    (d : Word) :
    s.takeOperand p b d =
      s.setSp p
        { s.sp p with
          burst := some { b with opA := some d, phase := .operandWait, hold := .none, beat := none }
          timer := 0
          expiryDue := false } := by
  simp only [State.takeOperand, hop, h, Bool.false_eq_true, if_false]
  rfl

theorem State.takeOperand_of_last {op : AtomicOp} (hop : b.hdr.op = .atomic op) (h : b.lastOperand = true) (d : Word) :
    s.takeOperand p b d =
      (s.setSp p { s.sp p with burst := some { b with phase := .locked, hold := .none } }).createLock
        (b.lockEntry p op d) := by
  simp only [State.takeOperand, hop, h, if_true]
  rfl

theorem State.takeBeat_taken (u : State) (p : SpId) (htype : frameType f = 2#4) : BeatTaken u (u.takeBeat p f) p f := by
  refine ⟨fun hb => ?_, fun b hb => ⟨fun htag => ?_, fun hph => ?_, fun htag =>
    ⟨fun hph hf => ?_, fun hph hf => ?_, fun op hph hop => ⟨fun hfirst => ?_, fun hlast _ => ?_⟩⟩⟩⟩
  · simp only [State.takeBeat, hb]
  · exact State.takeBeat_of_not_matching
      (Bool.eq_false_iff.2 fun hm => htag ((State.matchingBeat_iff hb).1 hm).2.2)
  · have hne : b.phase ≠ .beatWait ∧ b.phase ≠ .operandWait ∧ b.phase ≠ .operandBlocked := by
      rcases hph with h | h | h | h | h | ⟨h, _⟩ <;> simp [h]
    exact State.takeBeat_of_phase hb hne.1 hne.2.1 hne.2.2
  · rw [State.takeBeat_of_beatWait htype hb htag hph, State.takeWriteBeat_of_fenced _ _ hf]
  · rw [State.takeBeat_of_beatWait htype hb htag hph, State.takeWriteBeat_of_free _ _ hf]
  · have hnot : b.lastOperand = false := by
      refine Bool.eq_false_iff.2 fun hl => ?_
      rcases (Burst.lastOperand_iff hop).1 hl with h | h
      · exact h hfirst.1
      · exact h hfirst.2
    rw [State.takeBeat_of_operand htype hb htag hph, State.takeOperand_of_first hop hnot]
  · rw [State.takeBeat_of_operand htype hb htag hph, State.takeOperand_of_last hop ((Burst.lastOperand_iff hop).2 hlast)]
    rfl

/-! ### ABORT (R27, R69, R70, R154, R155) -/

theorem State.takeAbort_of_match (hb : (s.sp p).burst = some b) {t : Tag} (ht : b.hdr.tag = t) :
    s.takeAbort p t = s.abortBurst p b := by
  simp only [State.takeAbort, hb, ht, if_true]

theorem State.takeAbort_of_no_match {t : Tag} (h : ∀ b, (s.sp p).burst = some b → b.hdr.tag ≠ t) :
    s.takeAbort p t = s.abortQueued p t := by
  unfold State.takeAbort
  split
  · rename_i b hb
    exact if_neg (h b hb)
  · rfl

/-- A locked burst ends, and its lock entry is cancelled beside it. -/
theorem State.abortBurst_of_locked (hb : (s.sp p).burst = some b) (hph : b.phase = .locked) :
    s.abortBurst p b = (s.cancelLock p.port).setSp p ((s.sp p).ended b.hdr.tag .aborted b.done) := by
  simp only [State.abortBurst, hph]
  rw [State.endBurst_eq_ended hb, State.cancelLock_setSp]

theorem State.abortBurst_of_merge (hb : (s.sp p).burst = some b) (hph : b.phase = .merge) :
    s.abortBurst p b = (s.mergeWithdraw p.port).setSp p ((s.sp p).ended b.hdr.tag .aborted b.done) := by
  have hsp : (s.mergeWithdraw p.port).sp p = s.sp p := State.setMb_sp _ _ p
  simp only [State.abortBurst, hph]
  rw [State.endBurst_eq_ended (b := b) (by rw [hsp, hb]), hsp]

/-- The port once the ABORT has removed a queued header, the others left as `srq` (R155). -/
def StreamPort.dequeued (x : StreamPort) (tag : Tag) (srq : List Header) : StreamPort :=
  { x with
    srq := srq
    credits := if x.state = .enabled ∨ x.state = .suspended then x.credits + 1 else x.credits
    outbound := x.outbound ++ [.endMsg tag .aborted 0] ++ creditMsgs x.state }

/-- The headers behind the executing burst's. -/
def StreamPort.queued (x : StreamPort) : List Header := if x.burst.isSome then x.srq.drop 1 else x.srq

/-- The executing burst's header. -/
def StreamPort.first (x : StreamPort) : List Header := if x.burst.isSome then x.srq.take 1 else []

theorem State.abortQueued_of_none {t : Tag} (h : ∀ x ∈ (s.sp p).queued, x.tag ≠ t) : s.abortQueued p t = s := by
  have hnone : (s.sp p).queued.find? (·.tag == t) = none := List.find?_eq_none.2 fun x hx => by simpa using h x hx
  unfold StreamPort.queued at hnone
  simp only [State.abortQueued, hnone]

theorem State.abortQueued_of_split {t : Tag} {older younger : List Header} {h : Header}
    (hsplit : (s.sp p).queued = older ++ h :: younger) (ht : h.tag = t) (ho : ∀ x ∈ older, x.tag ≠ t) :
    s.abortQueued p t = s.setSp p ((s.sp p).dequeued t ((s.sp p).first ++ (older ++ younger))) := by
  have hfind : (s.sp p).queued.find? (·.tag == t) = some h :=
    find?_of_split hsplit (fun y hy => by simpa using ho y hy) (by simp [ht])
  have herase : (s.sp p).queued.eraseP (·.tag == t) = older ++ younger := by
    rw [hsplit, List.eraseP_append_right _ fun x hx => by simpa using ho x hx, List.eraseP_cons_of_pos (by simp [ht])]
  unfold StreamPort.queued at hfind herase
  simp only [State.abortQueued, hfind, herase, StreamPort.dequeued, StreamPort.first]
  cases (s.sp p).state <;> simp [PortState.credited, creditMsgs]

theorem State.takeAbort_taken (u : State) (p : SpId) (f : Frame) : AbortTaken u (u.takeAbort p (beatTag f)) p f := by
  refine ⟨fun b hb htag => ?_, fun hno => ⟨fun hnone => ?_, fun older h younger hsplit ht ho => ?_⟩⟩
  · rw [State.takeAbort_of_match hb htag, ← htag]
    have hend : u.endBurst p .aborted = u.setSp p ((u.sp p).ended b.hdr.tag .aborted b.done) :=
      State.endBurst_eq_ended hb _
    cases hph : b.phase with
    | readWait | readAccess =>
      simp only [State.abortBurst, hph]
      rfl
    | merge => exact State.abortBurst_of_merge hb hph
    | locked =>
      simp only [State.abortBurst_of_locked hb hph]
      refine ⟨State.setSp_sp_same _ p _, ?_, ?_⟩
      · exact (u.cancelLock_lockCancelled p).of_same (State.setSp_wlt _ p _) (State.setSp_mb _ p _)
          (State.setSp_arb _ p _) (State.setSp_ppt _ p _) fun q hq => State.setSp_sp_other _ hq _
      · exact (u.cancelLock_sameBut (p := p)).then (State.setSp_sameBut _ p _) (by simp)
          (by cases p <;> simp [spBlock])
    | readHold | beatWait | admitHold | operandWait | operandBlocked =>
      simp only [State.abortBurst, hph]
      exact hend
  · rw [State.takeAbort_of_no_match hno]
    exact State.abortQueued_of_none hnone
  · rw [State.takeAbort_of_no_match hno]
    exact State.abortQueued_of_split hsplit ht ho

/-! ### A frame is taken, at its arrival or from the link (R125, R195) -/

theorem State.takeFrame_of_discarded (h : frameType f = 0#4 ∨ 4#4 ≤ frameType f) : s.takeFrame p f = s := by
  have h1 : frameType f ≠ 1#4 := fun he => by rw [he] at h; exact absurd h (by decide)
  have h2 : frameType f ≠ 2#4 := fun he => by rw [he] at h; exact absurd h (by decide)
  have h3 : frameType f ≠ 3#4 := fun he => by rw [he] at h; exact absurd h (by decide)
  rw [State.takeFrame, if_neg h1, if_neg h2, if_neg h3]

theorem State.takeFrame_of_beat (h : frameType f = 2#4) : s.takeFrame p f = s.takeBeat p f := by
  rw [State.takeFrame, if_neg (by rw [h]; decide), if_pos h]

theorem State.takeFrame_of_abort (h : frameType f = 3#4) : s.takeFrame p f = s.takeAbort p (beatTag f) := by
  rw [State.takeFrame, if_neg (by rw [h]; decide), if_neg (by rw [h]; decide), if_pos h]

theorem State.takeFrame_taken (u : State) (p : SpId) (f : Frame) : FrameTaken u (u.takeFrame p f) p f := by
  refine ⟨fun h => ?_, fun h => ?_, fun h => ?_, fun h => State.takeFrame_of_discarded h⟩
  · rw [State.takeFrame, if_pos h]
    exact u.takeHeader_taken p f
  · rw [State.takeFrame_of_beat h]
    exact u.takeBeat_taken p h
  · rw [State.takeFrame_of_abort h]
    exact u.takeAbort_taken p f

/-- On an empty link a frame that need not wait is taken. -/
theorem State.arrive_takes (hempty : (u.sp p).inbound = []) (hno : ¬ BeatWaits u p f) :
    u.arrive p f = u.takeFrame p f := by
  have hready : u.canTake p f = true := by simpa using mt State.canTake_eq_false_iff.1 hno
  exact if_pos ⟨hempty, hready⟩

theorem not_beatWaits_of_type (h : frameType f ≠ 2#4) : ¬ BeatWaits u p f := fun hw => h hw.1

/-- What waits on the link does not say whether a beat must wait. -/
theorem beatWaits_setInbound (x : List Frame) :
    BeatWaits (u.setSp p { u.sp p with inbound := x }) p f ↔ BeatWaits u p f := by
  have hlock : (u.setSp p { u.sp p with inbound := x }).hasLock p.port = u.hasLock p.port := by simp [State.hasLock]
  simp only [BeatWaits, State.setSp_sp_same, hlock]

/-- A last operand that must wait leaves its burst in OPERAND_BLOCKED (R150). -/
theorem State.arrive_blocks (hempty : (u.sp p).inbound = []) (hw : BeatWaits u p f) (hb : (u.sp p).burst = some b)
    (hph : b.phase ≠ .merge) : ((u.arrive p f).sp p).burst = some { b with phase := .operandBlocked } := by
  have hnot : u.canTake p f = false := State.canTake_eq_false_iff.2 hw
  have harrive : u.arrive p f = (u.setSp p { u.sp p with inbound := [f] }).blockOperand p := by
    rw [State.arrive, if_neg (by simp [hnot]), hempty]
    rfl
  have hinbound : ((u.setSp p { u.sp p with inbound := [f] }).sp p).inbound = f :: [] := by rw [State.setSp_sp_same]
  have hburst : ((u.setSp p { u.sp p with inbound := [f] }).sp p).burst = some b := by rw [State.setSp_sp_same, hb]
  obtain ⟨b', hb', _, hcases⟩ := hw.2
  obtain rfl : b = b' := Option.some.inj (hb.symm.trans hb')
  obtain ⟨hphase, _⟩ := hcases.resolve_left fun h => hph h.1
  rw [harrive]
  rcases hphase with h | h
  · rw [State.blockOperand_of_waits hinbound hburst h ((beatWaits_setInbound _).2 hw), State.setSp_sp_same]
  · rw [State.blockOperand_of_takes hinbound hburst (by simp [h]), hburst, ← h]

theorem State.linkReady_iff :
    s.linkReady p = true ↔ ∃ f rest, (s.sp p).inbound = f :: rest ∧ ¬ BeatWaits s p f := by
  unfold State.linkReady
  cases h : (s.sp p).inbound with
  | nil => simp
  | cons f rest => simp [← State.canTake_eq_false_iff]

/-- A servable writer comes before the frames on the links (R26, log 3). -/
theorem State.ready_of_linkTake_due (h : Due.linkTake p ∈ s.due) : Ready s := by
  have hr : s.resetAsserted = false := Bool.eq_false_iff.2 fun hr => by simp [State.due_of_reset hr] at h
  refine ⟨hr, Option.not_isSome_iff_eq_none.1 fun hw => ?_⟩
  simp [State.due, hr, State.dueWork, hw, mem_oneIf] at h

theorem State.linkTake_due_iff :
    Due.linkTake p ∈ s.due ↔ Ready s ∧ ∃ f rest, (s.sp p).inbound = f :: rest ∧ ¬ BeatWaits s p f := by
  rw [← State.linkReady_iff]
  exact ⟨fun h => ⟨State.ready_of_linkTake_due h, State.dueCondition_of_due h⟩,
    fun ⟨hready, hlink⟩ => State.due_of_dueCondition hready.1 hready.2 (by simp) hlink⟩

theorem State.linkTake_of_cons {rest : List Frame} (h : (s.sp p).inbound = f :: rest) :
    s.linkTake p = ((s.setSp p { s.sp p with inbound := rest }).takeFrame p f).blockOperand p := by
  simp only [State.linkTake, h]

theorem State.blockOperand_of_not_waits
    (h : ∀ g more b, (s.sp p).inbound = g :: more → (s.sp p).burst = some b → b.phase = .operandWait → ¬ BeatWaits s p g) :
    s.blockOperand p = s := by
  cases hin : (s.sp p).inbound with
  | nil => exact State.blockOperand_of_empty hin
  | cons g more =>
    cases hb : (s.sp p).burst with
    | none => exact State.blockOperand_of_none hb
    | some b => exact State.blockOperand_of_takes hin hb fun ⟨hph, hw⟩ => h g more b hin hb hph hw

/-! ### The rows -/

/-- Settles O31: at its arrival by the link and the port's readiness, and from the link by the frame behind it. -/
theorem writeBeatArrival : Obligations.WriteBeatArrival := by
  unfold Obligations.WriteBeatArrival
  refine ⟨?_, fun s p => State.linkTake_due_iff, ?_⟩
  · intro s p f together hr htype u sp answers
    have hnext : answers (u.arrive p f) := congrArg Host.Outcome.next (State.frameTaken_of_whole hr p f u)
    refine ⟨congrArg Host.Outcome.next (s.frameTaken_of_part p f u), fun hlink => ?_, fun hempty =>
      ⟨fun hw => ?_, fun hno => ?_⟩⟩
    · exact ⟨_, hnext, State.arrive_joins (.inl hlink)⟩
    · exact ⟨_, hnext, State.arrive_joins (.inr (State.canTake_eq_false_iff.2 hw)),
        fun b hb hph => State.arrive_blocks hempty hw hb hph⟩
    · refine ⟨_, hnext, ?_⟩
      rw [State.arrive_takes hempty hno, State.takeFrame_of_beat htype]
      exact u.takeBeat_taken p htype
  · intro s p f rest hlink _ v
    have hinbound : ((v.takeFrame p f).sp p).inbound = rest := by
      rw [State.takeFrame_inbound, State.setSp_sp_same]
    have hfire : s.fire (.linkTake p) = (v.takeFrame p f).blockOperand p := State.linkTake_of_cons hlink
    refine ⟨v.takeFrame p f, v.takeFrame_taken p f, hinbound, fun h => ?_, fun g more b hrest hb hph hw => ?_⟩
    · rw [hfire]
      exact State.blockOperand_of_not_waits fun g more b hin => h g more b (hinbound.symm.trans hin)
    · rw [hfire, State.blockOperand_of_waits (hinbound.trans hrest) hb hph hw]

/-- Settles O32: an ABORT by the link, and a frame of a discarded type by the link. -/
theorem abortAndDiscardedFrames : Obligations.AbortAndDiscardedFrames := by
  unfold Obligations.AbortAndDiscardedFrames
  intro s p f together hr u sp
  have habort : exec (.abort p ⟨⟨f, true⟩, together⟩) s = .next (u.arrive p f) :=
    congrArg Host.Outcome.next (State.frameTaken_of_whole hr p f u)
  refine ⟨congrArg Host.Outcome.next (s.frameTaken_of_part p f u),
    congrArg Host.Outcome.next (s.frameTaken_of_part p f s.eventStart), fun htype hlink => ?_, fun htype hempty => ?_, ?_⟩
  · exact ⟨_, habort, State.arrive_joins (.inl hlink)⟩
  · refine ⟨_, habort, ?_⟩
    rw [State.arrive_takes hempty (not_beatWaits_of_type (by rw [htype]; decide)), State.takeFrame_of_abort htype]
    exact u.takeAbort_taken p f
  · intro htype v
    have hnext : exec (.discardedFrame p ⟨f, true⟩) s = .next (v.arrive p f) :=
      congrArg Host.Outcome.next (State.frameTaken_of_whole hr p f v)
    have hno : ¬ BeatWaits v p f := not_beatWaits_of_type fun h => by rw [h] at htype; exact absurd htype (by decide)
    refine ⟨fun hempty => ?_, fun hlink => ⟨_, hnext, State.arrive_joins (.inl hlink)⟩⟩
    rw [hnext, State.arrive_takes hempty hno, State.takeFrame_of_discarded htype]

end Sys2Proof.Machine
end
